-- ==== Sys2Proof/Word.lean ====
section
/-! DEFINITION. The word types of the block: the 72-bit event word (R55), the 64-bit sample index (R9 SampleClock, R7 W_T) and
the 40-bit raw frame value (R14), with the plainest reading of a sample index as an exact number (R8). -/

namespace Sys2Proof

/-- One byte, the unit in which an implementation may serialise an event word (R45). -/
abbrev Byte := BitVec 8

/-- R55: one event word `W[71:0]`, always delivered whole (R46). -/
abbrev EventWord := BitVec 72

/-- R9 SampleClock, R7 `W_T = 64`: an absolute sample index, unsigned, never wrapping (R42 E7). -/
abbrev Sample := BitVec 64

/-- R14, R7 `W_RAW = 40`: the raw frame value, first bit to arrive in bit 0. -/
abbrev RawWord := BitVec 40

/-- R13: the bit index, a count whose legal values are 0..40. -/
abbrev BitIndex := Fin 41

/-- R18: the number of valid edge-history entries, a count saturating at 3. -/
abbrev HistoryCount := Fin 4

/-- R8, R95: the exact difference of two sample indices, later one first, with no wrap. -/
def sampleDistance (later earlier : Sample) : Int :=
  (later.toNat : Int) - (earlier.toNat : Int)

end Sys2Proof
end

