-- ==== Sys2Proof/Config.lean ====
section
/-! DEFINITION. What the spec leaves to the implementation: the seven symbols of the protocol (R75) and the one OPEN parameter,
the one-wire windows `OW_US` (R7, 92_eei_decisions.md D40). The constants the spec does fix stand in Machine/Params.lean. -/

namespace Sys2Proof

/-- R75: the seven durations of the protocol, by the short names of R9. -/
inductive Symbol where
  /-- `SA`, start-active. -/
  | sa
  /-- `SP`, start-passive. -/
  | sp
  /-- `OA`, one-bit-active. -/
  | oa
  /-- `OP`, one-bit-passive. -/
  | op
  /-- `ZA`, zero-bit-active. -/
  | za
  /-- `ZP`, zero-bit-passive. -/
  | zp
  /-- `EP`, end pulse. -/
  | ep
  deriving DecidableEq, Repr

/-- A duration parameter in microseconds. DESIGN CHOICE (safe, entry 4): 51 bits is the greatest width for which every scaled
entry of R76 fits the 64-bit table entry of R27 at every 32-bit sample rate. -/
abbrev Micros := BitVec 51

/-- R7 `OW_US[sym] = (lo, hi)`: the bounds of one one-wire window, in microseconds. -/
structure Window where
  lo : Micros
  hi : Micros
  deriving DecidableEq, Repr, Inhabited

/-- The OPEN parameter of R7: the one-wire windows of the symbols other than `SA`. It has no body, so a proof about the model
holds for every value of it. DESIGN CHOICE of the form (safe, entry 4). -/
opaque Config.openWindow : Symbol → Window

end Sys2Proof
end

