-- ==== Sys2Proof/Syntax.lean ====
section
/-! DEFINITION. The nine events (R6: an instruction is one event word), the enumerations their fields carry, and the
pseudo-events of R71 as lists of events. -/

namespace Sys2Proof

/-- R56 `ch`: channel 0 is the transmit wire (the only wire of the one-wire variant), channel 1 the receive wire. -/
inductive Channel where
  | ch0
  | ch1
  deriving DecidableEq, Repr

/-- R56 `pol`: 0 a falling edge, 1 a rising edge. -/
inductive Polarity where
  | fall
  | rise
  deriving DecidableEq, Repr

/-- R23 `BORD`: 0 msb-first, 1 lsb-first. -/
inductive BitOrder where
  | msbFirst
  | lsbFirst
  deriving DecidableEq, Repr

/-- R24 `VAR`: 0 two-wire, 1 one-wire. -/
inductive Variant where
  | twoWire
  | oneWire
  deriving DecidableEq, Repr

/-- R16 `DIRF` and R25 `DIR`: 0 transmit, 1 receive. -/
inductive Direction where
  | tx
  | rx
  deriving DecidableEq, Repr

/-- The events, one constructor for each row of R60's table. The bits that NOP, EOC and RST ignore (R59) are no operands. -/
inductive Instr where
  /-- NOP: no event this cycle (R122). -/
  | nop
  /-- F0 @s: a fall on channel 0 (R124). -/
  | f0 (s : Sample)
  /-- R0 @s: a rise on channel 0 (R123). -/
  | r0 (s : Sample)
  /-- F1 @s: a fall on channel 1 (R126). -/
  | f1 (s : Sample)
  /-- R1 @s: a rise on channel 1 (R125). -/
  | r1 (s : Sample)
  /-- RATE hz: the sample rate (R77). -/
  | rate (hz : BitVec 32)
  /-- OPT acc bord var dir: the four options at once (R78). -/
  | opt (acc : BitVec 7) (bord : BitOrder) (var : Variant) (dir : Direction)
  /-- EOC: end of capture (R121). -/
  | eoc
  /-- RST: reset (R170). -/
  | rst
  deriving DecidableEq, Repr

/-- R71 `OPTDEF`: the reset values of the options. -/
def Instr.optDefault : Instr :=
  .opt 5 .msbFirst .twoWire .tx

/-- R71 `EDGE ch pol @s`. -/
def Instr.edge : Channel → Polarity → Sample → Instr
  | .ch0, .fall, s => .f0 s
  | .ch0, .rise, s => .r0 s
  | .ch1, .fall, s => .f1 s
  | .ch1, .rise, s => .r1 s

/-- The edge that begins an active segment of direction `d`: a rise on the transmit channel, a fall on the receive one (R101). -/
def Instr.leadingEdge : Direction → Sample → Instr
  | .tx, s => .r0 s
  | .rx, s => .f1 s

/-- The edge that ends an active segment of direction `d` (R101). -/
def Instr.trailingEdge : Direction → Sample → Instr
  | .tx, s => .f0 s
  | .rx, s => .r1 s

/-- The edges of the bits of R71's nominal frame at 1 MHz, the first active segment beginning at `s`; then the end pulse of
19000 samples and `tail` more. -/
def Instr.nominalBits (d : Direction) (tail : Sample) : Sample → List Bool → List Instr
  | s, [] => [.trailingEdge d (s + 19000), .leadingEdge d (s + 19000 + tail)]
  | s, b :: bs =>
    let active : Sample := if b then 3000 else 1000
    .trailingEdge d (s + active) :: .leadingEdge d (s + active + 1000) ::
      nominalBits d tail (s + active + 1000) bs

/-- R71 `TXFRAME` (`d = tx`) and `RXFRAME` (`d = rx`): a two-wire nominal frame at 1 MHz. -/
def Instr.nominalFrame (d : Direction) (s : Sample) (bits : List Bool) (tail : Sample) : List Instr :=
  .leadingEdge d s :: .trailingEdge d (s + 12000) :: .leadingEdge d (s + 13270) ::
    nominalBits d tail (s + 13270) bits

end Sys2Proof
end

