-- ==== Sys2Proof/WellFormed.lean ====
section
/-! DEFINITION. Which event words are well formed: R66's list of the reserved encodings, clause by clause. Every operand of
`Instr` has exactly its field's width (R61), so a term of `Instr` cannot be ill formed; the checks are on words. -/

namespace Sys2Proof

/-- R55: the operation code, bits 71:68. -/
def EventWord.opField (w : EventWord) : BitVec 4 := w.extractLsb' 68 4

/-- R55: the small argument, bits 67:64. -/
def EventWord.argField (w : EventWord) : BitVec 4 := w.extractLsb' 64 4

/-- R55: the operand, bits 63:0. -/
def EventWord.dataField (w : EventWord) : BitVec 64 := w.extractLsb' 0 64

/-- R66, first clause: `op` in 5..14. -/
def EventWord.reservedOp (w : EventWord) : Bool :=
  5 ≤ w.opField.toNat && w.opField.toNat ≤ 14

/-- R66, second clause: `op = 1` with `arg[3:2] != 0`. -/
def EventWord.reservedEdge (w : EventWord) : Bool :=
  w.opField == 1#4 && w.argField.extractLsb' 2 2 != 0#2

/-- R66, third clause: `op = 2` with `arg != 0` or `data[63:32] != 0`. -/
def EventWord.reservedRate (w : EventWord) : Bool :=
  w.opField == 2#4 && (w.argField != 0#4 || w.dataField.extractLsb' 32 32 != 0#32)

/-- R66, fourth clause: `op = 3` with `arg != 0` or `data[63:11] != 0` or `data[7] != 0`. -/
def EventWord.reservedOpt (w : EventWord) : Bool :=
  w.opField == 3#4 &&
    (w.argField != 0#4 || w.dataField.extractLsb' 11 53 != 0#53 || w.dataField.extractLsb' 7 1 != 0#1)

/-- R66, fifth clause: `op = 4` with `arg != 0`. -/
def EventWord.reservedEoc (w : EventWord) : Bool :=
  w.opField == 4#4 && w.argField != 0#4

/-- R66: a reserved encoding. -/
def EventWord.reserved (w : EventWord) : Bool :=
  w.reservedOp || w.reservedEdge || w.reservedRate || w.reservedOpt || w.reservedEoc

/-- A word that stands for one of the nine events. -/
def EventWord.wellFormed (w : EventWord) : Bool := !w.reserved

/-- R61: no operand of an event can be out of range, since each has its field's own width. -/
def Instr.wellFormed : Instr → Bool
  | .nop => true
  | .f0 _ => true
  | .r0 _ => true
  | .f1 _ => true
  | .r1 _ => true
  | .rate _ => true
  | .opt _ _ _ _ => true
  | .eoc => true
  | .rst => true

end Sys2Proof
end

