-- ==== Sys2Proof/Decode.lean ====
section
/-! DEFINITION. Decoding an event word (R55 to R61, R66, R67), the opcode rows of R60, the encoder written from the same tables,
the byte order of a serialised word (R45), and the trace notation of R70. -/

namespace Sys2Proof

/-- Why a word is RESERVED (R66), by clause; `incomplete` is a byte string shorter than one word, which R46 says cannot be
delivered. DESIGN CHOICE (safe, entry 11). -/
inductive Reject where
  /-- `op` in 5..14. -/
  | reservedOp
  /-- `op = 1`, `arg[3:2] != 0`. -/
  | edgeArg
  /-- `op = 2`, `arg != 0`. -/
  | rateArg
  /-- `op = 2`, `data[63:32] != 0`. -/
  | rateData
  /-- `op = 3`, `arg != 0`. -/
  | optArg
  /-- `op = 3`, `data[63:11] != 0` or `data[7] != 0`. -/
  | optData
  /-- `op = 4`, `arg != 0`. -/
  | eocArg
  /-- Fewer than nine bytes. -/
  | incomplete
  deriving DecidableEq, Repr

/-- R56: bit 65, the channel. -/
def channelField (w : EventWord) : Channel := if w.getLsbD 65 then .ch1 else .ch0

/-- R56: bit 64, the polarity. -/
def polarityField (w : EventWord) : Polarity := if w.getLsbD 64 then .rise else .fall

/-- R57: `hz`, bits 31:0. -/
def hzField (w : EventWord) : BitVec 32 := w.extractLsb' 0 32

/-- R58: `acc`, bits 6:0. -/
def accField (w : EventWord) : BitVec 7 := w.extractLsb' 0 7

/-- R58: `bord`, bit 8. -/
def bordField (w : EventWord) : BitOrder := if w.getLsbD 8 then .lsbFirst else .msbFirst

/-- R58: `var`, bit 9. -/
def varField (w : EventWord) : Variant := if w.getLsbD 9 then .oneWire else .twoWire

/-- R58: `dir`, bit 10. -/
def dirField (w : EventWord) : Direction := if w.getLsbD 10 then .rx else .tx

/-- R56: format E. -/
def decodeEdge (w : EventWord) : Except Reject Instr :=
  if w.argField.extractLsb' 2 2 ≠ 0#2 then .error .edgeArg
  else .ok (.edge (channelField w) (polarityField w) w.dataField)

/-- R57: format C, RATE. -/
def decodeRate (w : EventWord) : Except Reject Instr :=
  if w.argField ≠ 0#4 then .error .rateArg
  else if w.dataField.extractLsb' 32 32 ≠ 0#32 then .error .rateData
  else .ok (.rate (hzField w))

/-- R58: format C, OPT. -/
def decodeOpt (w : EventWord) : Except Reject Instr :=
  if w.argField ≠ 0#4 then .error .optArg
  else if w.dataField.extractLsb' 11 53 ≠ 0#53 then .error .optData
  else if w.dataField.extractLsb' 7 1 ≠ 0#1 then .error .optData
  else .ok (.opt (accField w) (bordField w) (varField w) (dirField w))

/-- R59: EOC, whose `data` is ignored. -/
def decodeEoc (w : EventWord) : Except Reject Instr :=
  if w.argField ≠ 0#4 then .error .eocArg else .ok .eoc

/-- R67: decoding is total; a word that is none of the nine events is RESERVED, with the clause of R66 that makes it so. -/
def decode (w : EventWord) : Except Reject Instr :=
  if w.opField = 0#4 then .ok .nop
  else if w.opField = 1#4 then decodeEdge w
  else if w.opField = 2#4 then decodeRate w
  else if w.opField = 3#4 then decodeOpt w
  else if w.opField = 4#4 then decodeEoc w
  else if w.opField = 15#4 then .ok .rst
  else .error .reservedOp

/-- R60: a row of the opcode map, which selects `W` iff `(W & mask) = match`. -/
structure OpcodeRow where
  mnemonic : String
  matchBits : EventWord
  maskBits : EventWord
  deriving DecidableEq, Repr

/-- R60: the row selects the word. -/
def OpcodeRow.selects (r : OpcodeRow) (w : EventWord) : Bool := (w &&& r.maskBits) == r.matchBits

/-- R60: the opcode map. -/
def opcodeRows : List OpcodeRow :=
  [⟨"NOP", 0x000000000000000000#72, 0xF00000000000000000#72⟩,
   ⟨"F0", 0x100000000000000000#72, 0xFF0000000000000000#72⟩,
   ⟨"R0", 0x110000000000000000#72, 0xFF0000000000000000#72⟩,
   ⟨"F1", 0x120000000000000000#72, 0xFF0000000000000000#72⟩,
   ⟨"R1", 0x130000000000000000#72, 0xFF0000000000000000#72⟩,
   ⟨"RATE", 0x200000000000000000#72, 0xFFFFFFFFFF00000000#72⟩,
   ⟨"OPT", 0x300000000000000000#72, 0xFFFFFFFFFFFFFFF880#72⟩,
   ⟨"EOC", 0x400000000000000000#72, 0xFF0000000000000000#72⟩,
   ⟨"RST", 0xF00000000000000000#72, 0xF00000000000000000#72⟩]

/-- R60: the mnemonic of an event's row. -/
def Instr.mnemonic : Instr → String
  | .nop => "NOP"
  | .f0 _ => "F0"
  | .r0 _ => "R0"
  | .f1 _ => "F1"
  | .r1 _ => "R1"
  | .rate _ => "RATE"
  | .opt _ _ _ _ => "OPT"
  | .eoc => "EOC"
  | .rst => "RST"

/-- R23: `BORD` as a bit. -/
def BitOrder.bit : BitOrder → BitVec 1
  | .msbFirst => 0#1
  | .lsbFirst => 1#1

/-- R24: `VAR` as a bit. -/
def Variant.bit : Variant → BitVec 1
  | .twoWire => 0#1
  | .oneWire => 1#1

/-- R16, R25: a direction as a bit. -/
def Direction.bit : Direction → BitVec 1
  | .tx => 0#1
  | .rx => 1#1

/-- The fields of R55 laid side by side, `op` most significant. -/
def eventWord (op arg : BitVec 4) (data : BitVec 64) : EventWord := op ++ arg ++ data

/-- R58: the `data` of an OPT. -/
def optData (acc : BitVec 7) (bord : BitOrder) (var : Variant) (dir : Direction) : BitVec 64 :=
  0#53 ++ dir.bit ++ var.bit ++ bord.bit ++ 0#1 ++ acc

/-- The word of an event, from R56 to R59. The bits NOP, EOC and RST ignore are written as 0, as R70 writes them.
DESIGN CHOICE (safe, entry 8). -/
def encode : Instr → EventWord
  | .nop => eventWord 0#4 0#4 0#64
  | .f0 s => eventWord 1#4 0b0000#4 s
  | .r0 s => eventWord 1#4 0b0001#4 s
  | .f1 s => eventWord 1#4 0b0010#4 s
  | .r1 s => eventWord 1#4 0b0011#4 s
  | .rate hz => eventWord 2#4 0#4 (0#32 ++ hz)
  | .opt acc bord var dir => eventWord 3#4 0#4 (optData acc bord var dir)
  | .eoc => eventWord 4#4 0#4 0#64
  | .rst => eventWord 15#4 0#4 0#64

/-- The low `n` bytes of a word, least significant first. -/
def lowBytes : Nat → EventWord → List Byte
  | 0, _ => []
  | n + 1, w => w.extractLsb' 0 8 :: lowBytes n (w >>> 8)

/-- R45 (D31): a word as the nine bytes an implementation sends, least significant byte first. -/
def serialise (w : EventWord) : List Byte := lowBytes 9 w

/-- The number whose bytes, least significant first, are given. -/
def littleEndian : List Byte → Nat
  | [] => 0
  | b :: bs => b.toNat + 256 * littleEndian bs

/-- Reading an event from a byte string (R45, R46): the event and the bytes after it, or why there is none. -/
def decodeBytes (bytes : List Byte) : Except Reject (Instr × List Byte) :=
  if bytes.length < 9 then .error .incomplete
  else match decode (BitVec.ofNat 72 (littleEndian (bytes.take 9))) with
    | .ok i => .ok (i, bytes.drop 9)
    | .error r => .error r

/-- The table's word `w` of `nbits` bits as an event word; every bit at or above `nbits` is 0. -/
def tableWord (nbits w : Nat) : EventWord := BitVec.ofNat 72 (w % 2 ^ nbits)

/-- What the decoder reads from a word numbered as spec/opcode_table.json numbers it. -/
def decodeTableWord (nbits w : Nat) : Option Instr :=
  match decodeBytes (serialise (tableWord nbits w)) with
  | .ok (i, _) => some i
  | .error _ => none

/-- R70: an event in the trace notation. -/
def Instr.notationText : Instr → String
  | .nop => "NOP"
  | .f0 s => "F0 @" ++ toString s.toNat
  | .r0 s => "R0 @" ++ toString s.toNat
  | .f1 s => "F1 @" ++ toString s.toNat
  | .r1 s => "R1 @" ++ toString s.toNat
  | .rate hz => "RATE " ++ toString hz.toNat
  | .opt acc bord var dir =>
    "OPT acc=" ++ toString acc.toNat
      ++ (match bord with | .msbFirst => " order=msb" | .lsbFirst => " order=lsb")
      ++ (match var with | .twoWire => " var=2w" | .oneWire => " var=1w")
      ++ (match dir with | .tx => " dir=tx" | .rx => " dir=rx")
  | .eoc => "EOC"
  | .rst => "RST"

end Sys2Proof
end

