-- ==== Sys2Proof/Machine/Params.lean ====
section
/-! DEFINITION. The parameters of R7 that the spec fixes, each once and under its name (93_implementation_defined.md U1: the
literals are unaudited, so a corrected value changes one definition here), and the one-wire windows, six of them OPEN. -/

namespace Sys2Proof.Machine

/-- R7 `FRAME_W`: the fixed pivot width of the bit reversal (R131). UNVERIFIED literal (unsafe for the device, entry 9). -/
def frameWidth : Nat := 40

/-- R7 `PAR_A`: parity position A (R112, R132). UNVERIFIED literal (unsafe for the device, entry 9). -/
def parityPositionA : Nat := 10

/-- R7 `PAR_B`: parity position B (R112, R132). UNVERIFIED literal (unsafe for the device, entry 9). -/
def parityPositionB : Nat := 26

/-- R7 `ACC_DEFAULT`: the accuracy after reset (R31). -/
def accuracyDefault : BitVec 7 := 5

/-- R7 `BORD_DEFAULT`: the bit order after reset (R31). -/
def bitOrderDefault : BitOrder := .msbFirst

/-- R7 `TW_US`: the two-wire nominal durations in microseconds. UNVERIFIED literals (unsafe for the device, entry 9). -/
def twoWireMicros : Symbol → Nat
  | .sa => 12000
  | .sp => 1270
  | .oa => 3000
  | .op => 1000
  | .za => 1000
  | .zp => 1000
  | .ep => 19000

/-- R7 `OW_US`: the one-wire windows in microseconds. Only `SA` has a value in the spec; the others are the opaque parameter. -/
def oneWireWindow : Symbol → Window
  | .sa => ⟨11500, 12500⟩
  | .sp => Config.openWindow .sp
  | .oa => Config.openWindow .oa
  | .op => Config.openWindow .op
  | .za => Config.openWindow .za
  | .zp => Config.openWindow .zp
  | .ep => Config.openWindow .ep

end Sys2Proof.Machine
end

