-- ==== Sys2Proof/Machine/State.lean ====
section
/-! DEFINITION. The architectural state of R10 with the two streams of R40, as plain data; the reasons a step can stop; the
annotation record of R62; and the state right after reset (R31, R170). -/

namespace Sys2Proof.Machine

/-- R11: the six resting states of the frame state machine. Codes 6 and 7 are never written and cannot be held
(93_implementation_defined.md U13; DESIGN CHOICE, safe, entry 6). -/
inductive Phase where
  /-- Code 0: waiting for the edge that starts a frame attempt. -/
  | idle
  /-- Code 1, `ASC_A`: the start-active segment is running. -/
  | ascA
  /-- Code 2, `ASC_P`: the start-passive segment is running. -/
  | ascP
  /-- Code 3, `IF_A`: in a confirmed frame, an active segment is running. -/
  | ifA
  /-- Code 4, `IF_P`: in a confirmed frame, a passive segment is running. -/
  | ifP
  /-- Code 5: the session is over; every event but RST is ignored. -/
  | halted
  deriving DecidableEq, Repr

/-- R28: the four sticky fault flags, bits 0 to 3 of `FAULT`. -/
structure FaultFlags where
  /-- Bit 0, ConfigurationError (R151). -/
  cfg : Bool
  /-- Bit 1, a sample index that does not increase (R155). -/
  seq : Bool
  /-- Bit 2, a 41st bit in one frame (R156). -/
  ovl : Bool
  /-- Bit 3, an illegal event (R157). -/
  ill : Bool
  deriving DecidableEq, Repr

/-- R26, R27: a table of seven 64-bit entries, one for each symbol. -/
structure SymbolTable where
  sa : Sample
  sp : Sample
  oa : Sample
  op : Sample
  za : Sample
  zp : Sample
  ep : Sample
  deriving DecidableEq, Repr

/-- R63: the category of an annotation record. Codes 7 to 15 are never emitted and cannot be held. -/
inductive Category where
  | start
  | bit
  | parity
  | frameTx
  | frameRx
  | error
  | endPulse
  deriving DecidableEq, Repr

/-- R62: an annotation record `(start, end, cat, payload)`; the payload's layout is R64's. -/
structure Annotation where
  startSample : Sample
  endSample : Sample
  category : Category
  payload : BitVec 48
  deriving DecidableEq, Repr

/-- Why the machine stops. The spec's own conditions (R150) are all steps with a next state; none of them is here. -/
inductive Fault where
  /-- Raised by an edge event that would read a history entry `EHC` says is not there: R18 forbids the read, R93 calls it
  "undefined (must not be called)", U2 asks for a refusal. No state a run from reset reaches raises it (R19). Safe (entry 5). -/
  | historyReadForbidden
  deriving DecidableEq, Repr

/-- Why an instruction has no meaning. No arm of `exec` answers with one. -/
inductive Refusal where
  /-- Raised only by an arm of `exec` whose instruction has no meaning yet; there is none. Safe. -/
  | notModelled (mnemonic : String)
  deriving DecidableEq, Repr

/-- R10: every register of the block, with the streams `OUT` (R34) and `IN` (R40). -/
structure State where
  /-- `ST` (R11). -/
  st : Phase
  /-- `BI` (R13). -/
  bi : BitIndex
  /-- `RAW` (R14). -/
  raw : RawWord
  /-- `FS` (R15). -/
  fs : Sample
  /-- `DIRF` (R16). -/
  dirf : Direction
  /-- `T0`, the last recorded sample index (R17). -/
  t0 : Sample
  /-- `T1`, the second-last (R17). -/
  t1 : Sample
  /-- `T2`, the third-last (R17). -/
  t2 : Sample
  /-- `EHC`, how many of `T0..T2` are valid (R18). -/
  ehc : HistoryCount
  /-- `CFGD` (R20). -/
  cfgd : Bool
  /-- `RATE` (R21). -/
  rate : BitVec 32
  /-- `ACC` (R22). -/
  acc : BitVec 7
  /-- `BORD` (R23). -/
  bord : BitOrder
  /-- `VAR` (R24). -/
  var : Variant
  /-- `DIR`, read by no rule (R25). -/
  dir : Direction
  /-- `THR[sym]` (R26). -/
  thr : SymbolTable
  /-- `WLO[sym]` (R27). -/
  wlo : SymbolTable
  /-- `WHI[sym]` (R27). -/
  whi : SymbolTable
  /-- `FAULT` (R28). -/
  fault : FaultFlags
  /-- `OUT`, oldest record first (R34). -/
  out : List Annotation
  /-- `IN`, the event words not yet consumed, next one first (R40). DEDUCED (safe, entry 1). -/
  input : List EventWord
  deriving DecidableEq, Repr

/-- A table with 0 in every entry. -/
def SymbolTable.zero : SymbolTable := ⟨0, 0, 0, 0, 0, 0, 0⟩

/-- R31: no fault flag set. -/
def FaultFlags.clear : FaultFlags := ⟨false, false, false, false⟩

/-- R31, R170: the state right after reset, with no event word waiting. `FS`, `T0..T2`, `RATE` and the three tables "hold no
value" there; the model names 0 for them. DESIGN CHOICE (unsafe, entry 3). -/
def State.reset : State where
  st := .idle
  bi := 0
  raw := 0
  fs := 0
  dirf := .tx
  t0 := 0
  t1 := 0
  t2 := 0
  ehc := 0
  cfgd := false
  rate := 0
  acc := accuracyDefault
  bord := bitOrderDefault
  var := .twoWire
  dir := .tx
  thr := SymbolTable.zero
  wlo := SymbolTable.zero
  whi := SymbolTable.zero
  fault := FaultFlags.clear
  out := []
  input := []

end Sys2Proof.Machine
end

