-- ==== Sys2Proof/Machine/Flags.lean ====
section
/-! DEFINITION. The status outputs: the four bits of `FAULT` (R28) and how one is set, the code of `ST` (R11), and the wait
specification `wspec` (R68). -/

namespace Sys2Proof.Machine

/-- R28: the names of the four sticky flags. -/
inductive FaultFlag where
  | cfg
  | seq
  | ovl
  | ill
  deriving DecidableEq, Repr

/-- R8 `raise F`: `FAULT[F] <- 1`; the other flags keep their values. -/
def FaultFlags.raise (f : FaultFlags) : FaultFlag → FaultFlags
  | .cfg => { f with cfg := true }
  | .seq => { f with seq := true }
  | .ovl => { f with ovl := true }
  | .ill => { f with ill := true }

/-- R28: a flag's value. -/
def FaultFlags.get (f : FaultFlags) : FaultFlag → Bool
  | .cfg => f.cfg
  | .seq => f.seq
  | .ovl => f.ovl
  | .ill => f.ill

/-- R28: `FAULT` as its four bits, CFG in bit 0. -/
def FaultFlags.bits (f : FaultFlags) : BitVec 4 :=
  BitVec.ofBool f.ill ++ BitVec.ofBool f.ovl ++ BitVec.ofBool f.seq ++ BitVec.ofBool f.cfg

/-- R8 `raise F` on the state. -/
def State.raiseFlag (s : State) (f : FaultFlag) : State := { s with fault := s.fault.raise f }

/-- R11: the code of a resting state. -/
def Phase.code : Phase → BitVec 3
  | .idle => 0
  | .ascA => 1
  | .ascP => 2
  | .ifA => 3
  | .ifP => 4
  | .halted => 5

/-- R63: the code of a category. -/
def Category.code : Category → BitVec 4
  | .start => 0
  | .bit => 1
  | .parity => 2
  | .frameTx => 3
  | .frameRx => 4
  | .error => 5
  | .endPulse => 6

/-- R62: a record packed into one word `{cat, start, end, payload}`. -/
def Annotation.pack (a : Annotation) : BitVec 180 :=
  a.category.code ++ a.startSample ++ a.endSample ++ a.payload

/-- R68: the bit of `wspec` that stands for an edge. -/
def wspecBit : Channel → Polarity → Nat
  | .ch0, .rise => 0
  | .ch0, .fall => 1
  | .ch1, .rise => 2
  | .ch1, .fall => 3

/-- R68: the transitions the block would act on, row by row of its table. The row the table does not have (receive direction in
the one-wire variant outside IDLE) awaits nothing. DEDUCED (unsafe only in states no run reaches, entry 7). -/
def State.wspec (s : State) : BitVec 4 :=
  if s.cfgd = false then 0b0000
  else match s.st, s.var, s.dirf with
    | .idle, .oneWire, _ => 0b0001
    | .idle, .twoWire, _ => 0b1001
    | .ascA, _, .tx => 0b0010
    | .ifA, _, .tx => 0b0010
    | .ascP, _, .tx => 0b0001
    | .ifP, _, .tx => 0b0001
    | .ascA, .twoWire, .rx => 0b0100
    | .ifA, .twoWire, .rx => 0b0100
    | .ascP, .twoWire, .rx => 0b1000
    | .ifP, .twoWire, .rx => 0b1000
    | .ascA, .oneWire, .rx => 0b0000
    | .ifA, .oneWire, .rx => 0b0000
    | .ascP, .oneWire, .rx => 0b0000
    | .ifP, .oneWire, .rx => 0b0000
    | .halted, _, _ => 0b0000

end Sys2Proof.Machine
end

