-- ==== Sys2Proof/Machine/Operands.lean ====
section
/-! DEFINITION. How operands are read and values laid out: a symbol's table entry (R26, R27), an operand as an exact number (R61),
which edge qualifies (R101, R123 to R126), and the payloads of R64. -/

namespace Sys2Proof.Machine

/-- R26, R27: the entry of a symbol. -/
def SymbolTable.get (t : SymbolTable) : Symbol → Sample
  | .sa => t.sa
  | .sp => t.sp
  | .oa => t.oa
  | .op => t.op
  | .za => t.za
  | .zp => t.zp
  | .ep => t.ep

/-- R76: the table whose entry for each symbol is given. -/
def SymbolTable.ofEntries (f : Symbol → Sample) : SymbolTable :=
  ⟨f .sa, f .sp, f .oa, f .op, f .za, f .zp, f .ep⟩

/-- R61: `acc` zero-extended to a signed value before `100 - acc`. -/
def accuracyValue (acc : BitVec 7) : Int := (acc.toNat : Int)

/-- R101 with R123 to R126: the edges that end an active segment of the attempt's own direction. -/
def endsActive (d : Direction) (var : Variant) (ch : Channel) (pol : Polarity) : Bool :=
  match d, var, ch, pol with
  | .tx, _, .ch0, .fall => true
  | .rx, .twoWire, .ch1, .rise => true
  | _, _, _, _ => false

/-- R101 with R123 to R126: the edges that end a passive segment of the attempt's own direction. -/
def endsPassive (d : Direction) (var : Variant) (ch : Channel) (pol : Polarity) : Bool :=
  match d, var, ch, pol with
  | .tx, _, .ch0, .rise => true
  | .rx, .twoWire, .ch1, .fall => true
  | _, _, _, _ => false

/-- R101: the edges that start an attempt in IDLE. -/
def startsAttempt (var : Variant) (ch : Channel) (pol : Polarity) : Bool :=
  match var, ch, pol with
  | _, .ch0, .rise => true
  | .twoWire, .ch1, .fall => true
  | _, _, _ => false

/-- R101: whether an edge qualifies in the current state, for `CFGD = 1` (R100 is tested before). Channel 1 never qualifies in
the one-wire variant (R125, R126); where R101's table alone would let it, in a state R68 calls impossible, the per-event rules
are followed. DEDUCED (unsafe only in states no run reaches, entry 7). -/
def State.qualifies (s : State) (ch : Channel) (pol : Polarity) : Bool :=
  match s.st with
  | .idle => startsAttempt s.var ch pol
  | .ascA => endsActive s.dirf s.var ch pol
  | .ascP => endsPassive s.dirf s.var ch pol
  | .ifA => endsActive s.dirf s.var ch pol
  | .ifP => endsPassive s.dirf s.var ch pol
  | .halted => false

/-- R103: the direction an attempt takes from its first edge. -/
def attemptDirection (var : Variant) (ch : Channel) : Direction :=
  match var, ch with
  | .twoWire, .ch1 => .rx
  | _, _ => .tx

/-- R64: the payload of a BIT or PARITY record, the index in bits 5:0. -/
def indexPayload (i : BitIndex) : BitVec 48 := 0#42 ++ BitVec.ofNat 6 i.val

/-- R64 `plabel`: the parity label; code 3 is never emitted and cannot be held. -/
inductive ParityLabel where
  | none
  | even
  | odd
  deriving DecidableEq, Repr

/-- R64: the code of a parity label. -/
def ParityLabel.code : ParityLabel → BitVec 2
  | .none => 0
  | .even => 1
  | .odd => 2

/-- R64, R137: the payload of a frame-value record, `{0[5:0], plabel[1:0], disp[39:0]}`. -/
def framePayload (l : ParityLabel) (disp : RawWord) : BitVec 48 := 0#6 ++ l.code ++ disp

end Sys2Proof.Machine
end

