-- ==== Sys2Proof/Machine/Matcher.lean ====
section
/-! DEFINITION. The threshold table and the tolerance matcher (40_thresholds_matcher.md R76, R79, R80, R81). -/

namespace Sys2Proof.Machine

/-- R76: one table entry, `floor(us * hz / 1000000)`, the product formed exactly and divided once. -/
def scaleMicros (us : Nat) (hz : BitVec 32) : Sample := BitVec.ofNat 64 (us * hz.toNat / 1000000)

/-- R76: the two-wire table. -/
def buildThr (hz : BitVec 32) : SymbolTable :=
  .ofEntries fun sym => scaleMicros (twoWireMicros sym) hz

/-- R76: the one-wire lower bounds. -/
def buildWlo (hz : BitVec 32) : SymbolTable :=
  .ofEntries fun sym => scaleMicros (oneWireWindow sym).lo.toNat hz

/-- R76: the one-wire upper bounds. -/
def buildWhi (hz : BitVec 32) : SymbolTable :=
  .ofEntries fun sym => scaleMicros (oneWireWindow sym).hi.toNat hz

/-- R76 `build(hz)`: all 21 entries. -/
def State.build (s : State) (hz : BitVec 32) : State :=
  { s with thr := buildThr hz, wlo := buildWlo hz, whi := buildWhi hz }

/-- R79 `near(d, t, a)`: strict on both sides, in exact signed arithmetic. -/
def near (d t a : Int) : Bool := t * (100 - a) < 100 * d && 100 * d < t * (100 + a)

/-- R80 `inwin(d, lo, hi)`: strict on both sides. -/
def inwin (d lo hi : Int) : Bool := lo < d && d < hi

/-- R81 `match(sym, d)`: the comparison every state rule uses. -/
def State.matchesSymbol (s : State) (sym : Symbol) (d : Int) : Bool :=
  match s.var with
  | .twoWire => near d (s.thr.get sym).toNat (accuracyValue s.acc)
  | .oneWire => inwin d (s.wlo.get sym).toNat (s.whi.get sym).toNat

end Sys2Proof.Machine
end

