-- ==== Sys2Proof/Machine/Ops.lean ====
section
/-! DEFINITION. The named operations over the registers and the streams: `emit` (R43), the edge tracker (R91 to R94), and taking
an exceptional condition (R150, R161). The return from a condition is automatic (R162): taking one already leaves the block where
the next event finds it, so there is no operation for it. -/

namespace Sys2Proof.Machine

/-- `ST <- p` (R8). -/
def State.goto (s : State) (p : Phase) : State := { s with st := p }

/-- R43 `emit`: append one record to `OUT`. -/
def State.emit (s : State) (a : Annotation) : State := { s with out := s.out ++ [a] }

/-- R91: `min(EHC + 1, 3)`. -/
def countUp (n : HistoryCount) : HistoryCount := ⟨min (n.val + 1) 3, by omega⟩

/-- R91 `record(s)`. -/
def State.record (s : State) (x : Sample) : State :=
  { s with t2 := s.t1, t1 := s.t0, t0 := x, ehc := countUp s.ehc }

/-- R92 `clear()`: `T0..T2` become invalid by the count alone. -/
def State.clearHistory (s : State) : State := { s with ehc := 0 }

/-- R93 `mostRecentInterval()`, with its precondition `EHC >= 2` (U2: no value without it). -/
def State.mostRecentInterval (s : State) : Option Int :=
  if 2 ≤ s.ehc.val then some (sampleDistance s.t0 s.t1) else none

/-- R94 `priorInterval(k)`: distance 0 is `mostRecentInterval`, distance 1 needs `EHC = 3`, no other is provided. -/
def State.priorInterval (s : State) : Nat → Option Int
  | 0 => s.mostRecentInterval
  | 1 => if s.ehc.val = 3 then some (sampleDistance s.t1 s.t2) else none
  | _ + 2 => none

/-- R150: the exceptional conditions. -/
inductive Condition where
  /-- ConfigurationError (R151). -/
  | configurationError
  /-- SymbolMismatch, a FrameError (R152, R118). -/
  | symbolMismatch
  /-- SpuriousStart (R153). -/
  | spuriousStart
  /-- Truncated capture (R154). -/
  | truncatedCapture
  /-- A sample index that does not increase (R155). -/
  | seq
  /-- A 41st bit (R156). -/
  | ovl
  /-- An illegal event (R157). -/
  | ill
  deriving DecidableEq, Repr

/-- R118, R156: the ERROR record, from the start of the failed pair to the current sample. -/
def State.errorRecord (s : State) : Annotation := ⟨s.t2, s.t0, .error, 0⟩

/-- R150, R161: what taking a condition does, all of it in the step: the flag of R28, the record, and the next `ST`. Nothing is
saved, and every other register keeps its value. -/
def State.takeCondition (s : State) : Condition → State
  | .configurationError => (s.raiseFlag .cfg).goto .halted
  | .symbolMismatch => (s.emit s.errorRecord).goto .idle
  | .spuriousStart => s.goto .idle
  | .truncatedCapture => s.goto .halted
  | .seq => (s.raiseFlag .seq).goto .idle
  | .ovl => ((s.raiseFlag .ovl).emit s.errorRecord).goto .idle
  | .ill => s.raiseFlag .ill

end Sys2Proof.Machine
end

