-- ==== Sys2Proof/Machine/Assembler.lean ====
section
/-! DEFINITION. The frame assembler (43_frame_assembler.md R130 to R137). -/

namespace Sys2Proof.Machine

/-- R131 `rev40(raw, n)`, the sum over `j < n` of `raw[39 - j] << j`, for `n <= 40`. -/
def rev40Sum (raw : RawWord) : Nat → Nat
  | 0 => 0
  | j + 1 => rev40Sum raw j + (raw.getLsbD (frameWidth - 1 - j)).toNat * 2 ^ j

/-- R131: the reversal as a 40-bit value. -/
def rev40 (raw : RawWord) (n : BitIndex) : RawWord := BitVec.ofNat 40 (rev40Sum raw n.val)

/-- R132: `parityA`, read from the raw value whatever the bit count. -/
def parityA (raw : RawWord) : Bool := raw.getLsbD parityPositionA

/-- R132: `parityB`. -/
def parityB (raw : RawWord) : Bool := raw.getLsbD parityPositionB

/-- R134: the display value. -/
def displayValue (bord : BitOrder) (raw : RawWord) (n : BitIndex) : RawWord :=
  match bord with
  | .lsbFirst => raw
  | .msbFirst => rev40 raw n

/-- R135: the parity label, even checked before odd and not exclusive. -/
def parityLabel (raw : RawWord) : ParityLabel :=
  if parityA raw then .even else if parityB raw then .odd else .none

/-- R136: the category of the frame-value record. -/
def frameCategory (var : Variant) (dirf : Direction) : Category :=
  match var, dirf with
  | .twoWire, .rx => .frameRx
  | _, _ => .frameTx

/-- R137: the frame-value record of a frame that ends at `ee`. -/
def State.frameRecord (s : State) (ee : Sample) : Annotation :=
  ⟨s.fs, ee, frameCategory s.var s.dirf, framePayload (parityLabel s.raw) (displayValue s.bord s.raw s.bi)⟩

/-- R117: completing a frame whose end pulse is `(es, ee)`: the END record, then the frame value, then IDLE. -/
def State.completeFrame (s : State) (es ee : Sample) : State :=
  ((s.emit ⟨es, ee, .endPulse, 0⟩).emit (s.frameRecord ee)).goto .idle

end Sys2Proof.Machine
end

