-- ==== Sys2Proof/Machine/FrameMachine.lean ====
section
/-! DEFINITION. The frame state machine (42_frame_state_machine.md R100 to R118): one rule for each resting state, and the step an
edge event makes over them. -/

namespace Sys2Proof.Machine

/-- What a step answers. -/
abbrev Result := Host.Outcome State Fault Refusal

/-- R103: in IDLE, a qualifying edge starts an attempt. -/
def State.startAttempt (s : State) (ch : Channel) (x : Sample) : State :=
  { (s.clearHistory.record x) with dirf := attemptDirection s.var ch, st := .ascA }

/-- R104: in `ASC_A`, after the edge is recorded. -/
def State.startActiveEnds (s : State) : Result :=
  match s.mostRecentInterval with
  | some d => .next (if s.matchesSymbol .sa d then s.goto .ascP else s.takeCondition .spuriousStart)
  | none => .fault .historyReadForbidden

/-- R106: confirming the start pulse. -/
def State.confirmStart (s : State) : State :=
  { (s.emit ⟨s.t2, s.t0, .start, 0⟩) with fs := s.t2, raw := 0, bi := 0, st := .ifA }

/-- R105: in `ASC_P`, after the edge is recorded. The record and `FS` read `T2`, so the history must be full (R18). -/
def State.startPassiveEnds (s : State) : Result :=
  match s.mostRecentInterval, s.priorInterval 1 with
  | some d, some _ => .next (if s.matchesSymbol .sp d then s.confirmStart else s.takeCondition .spuriousStart)
  | _, _ => .fault .historyReadForbidden

/-- R107, R108: in `IF_A`, after the edge is recorded. Only the one-wire variant tests for the end pulse here. -/
def State.activeEnds (s : State) : Result :=
  match s.var with
  | .twoWire => .next (s.goto .ifP)
  | .oneWire =>
    match s.mostRecentInterval with
    | some c =>
      .next (if !s.matchesSymbol .oa c && s.matchesSymbol .ep c then s.completeFrame s.t1 s.t0 else s.goto .ifP)
    | none => .fault .historyReadForbidden

/-- R109: what an active/passive pair is. -/
inductive PairClass where
  | oneBit
  | zeroBit
  | endPulse
  | mismatch
  deriving DecidableEq, Repr

/-- R109 to R111, R115: the tests on the pair's active segment `p` and passive segment `c`, in their order. -/
def State.classifyPair (s : State) (p c : Int) : PairClass :=
  if s.matchesSymbol .oa p && s.matchesSymbol .op c then .oneBit
  else if s.matchesSymbol .za p && s.matchesSymbol .zp c then .zeroBit
  else if s.var == .twoWire && s.matchesSymbol .ep p then .endPulse
  else .mismatch

/-- R112, R113: two-wire frames route positions 10 and 26 to PARITY. -/
def bitCategory (var : Variant) (i : BitIndex) : Category :=
  match var with
  | .twoWire => if i.val = parityPositionA ∨ i.val = parityPositionB then .parity else .bit
  | .oneWire => .bit

/-- R112: `RAW[BI] <- 1` for a one-bit; R113: `RAW` is not written by a zero-bit. -/
def writeBit (raw : RawWord) (i : BitIndex) (b : Bool) : RawWord :=
  if b then raw ||| 1#40 <<< i.val else raw

/-- R112, R113, R114: a pair that is a bit of value `b`. -/
def State.acceptBit (s : State) (b : Bool) : State :=
  if h : s.bi.val < frameWidth then
    { (s.emit ⟨s.t2, s.t0, bitCategory s.var s.bi, indexPayload s.bi⟩) with
      raw := writeBit s.raw s.bi b
      bi := ⟨s.bi.val + 1, Nat.succ_lt_succ h⟩
      st := .ifA }
  else s.takeCondition .ovl

/-- R109: what the pair's class does. -/
def State.applyPair (s : State) : PairClass → State
  | .oneBit => s.acceptBit true
  | .zeroBit => s.acceptBit false
  | .endPulse => s.completeFrame s.t2 s.t1
  | .mismatch => s.takeCondition .symbolMismatch

/-- R109: in `IF_P`, after the edge is recorded. -/
def State.passiveEnds (s : State) : Result :=
  match s.priorInterval 1, s.mostRecentInterval with
  | some p, some c => .next (s.applyPair (s.classifyPair p c))
  | _, _ => .fault .historyReadForbidden

/-- The rule of the state, after the prelude. -/
def State.stateRule (s : State) : Result :=
  match s.st with
  | .idle => .next s
  | .ascA => s.startActiveEnds
  | .ascP => s.startPassiveEnds
  | .ifA => s.activeEnds
  | .ifP => s.passiveEnds
  | .halted => .next s

/-- R102: the prelude of every qualifying edge outside IDLE. It reads `T0`, which needs `EHC >= 1` (R18). -/
def State.prelude (s : State) (x : Sample) : Result :=
  if s.ehc.val = 0 then .fault .historyReadForbidden
  else if x.toNat ≤ s.t0.toNat then .next (s.takeCondition .seq)
  else (s.record x).stateRule

/-- 42_frame_state_machine.md section 8, (1) to (4): what an edge event does. -/
def State.onEdge (s : State) (ch : Channel) (pol : Polarity) (x : Sample) : Result :=
  if s.st = .halted then .next s
  else if s.cfgd = false then .next s
  else if s.qualifies ch pol = false then .next s
  else if s.st = .idle then .next (s.startAttempt ch x)
  else s.prelude x

end Sys2Proof.Machine
end

