-- ==== Sys2Proof/Machine/Configure.lean ====
section
/-! DEFINITION. The meanings of the configuration events RATE (R77) and OPT (R78). -/

namespace Sys2Proof.Machine

/-- R77, last line: `RATE <- hz; build(hz); CFGD <- 1`. -/
def State.acceptRate (s : State) (hz : BitVec 32) : State :=
  { (s.build hz) with rate := hz, cfgd := true }

/-- R78, last line: all four options at once. -/
def State.acceptOptions (s : State) (acc : BitVec 7) (bord : BitOrder) (var : Variant) (dir : Direction) : State :=
  { s with acc := acc, bord := bord, var := var, dir := dir }

/-- R77: RATE. -/
def execRate (hz : BitVec 32) (s : State) : Result :=
  match s.st with
  | .halted => .next s
  | .idle => .next (if hz = 0 then s.takeCondition .configurationError else s.acceptRate hz)
  | .ascA => .next (s.takeCondition .ill)
  | .ascP => .next (s.takeCondition .ill)
  | .ifA => .next (s.takeCondition .ill)
  | .ifP => .next (s.takeCondition .ill)

/-- R78: OPT. -/
def execOpt (acc : BitVec 7) (bord : BitOrder) (var : Variant) (dir : Direction) (s : State) : Result :=
  match s.st with
  | .halted => .next s
  | .idle => .next (s.acceptOptions acc bord var dir)
  | .ascA => .next (s.takeCondition .ill)
  | .ascP => .next (s.takeCondition .ill)
  | .ifA => .next (s.takeCondition .ill)
  | .ifP => .next (s.takeCondition .ill)

end Sys2Proof.Machine
end

