-- ==== Sys2Proof/Machine/Edge.lean ====
section
/-! DEFINITION. The meanings of the four edge events (R123 to R126). -/

namespace Sys2Proof.Machine

/-- R123: a rise on channel 0. -/
def execR0 (x : Sample) (s : State) : Result := s.onEdge .ch0 .rise x

/-- R124: a fall on channel 0. -/
def execF0 (x : Sample) (s : State) : Result := s.onEdge .ch0 .fall x

/-- R125: a rise on channel 1. -/
def execR1 (x : Sample) (s : State) : Result := s.onEdge .ch1 .rise x

/-- R126: a fall on channel 1. -/
def execF1 (x : Sample) (s : State) : Result := s.onEdge .ch1 .fall x

end Sys2Proof.Machine
end

