-- ==== Sys2Proof/Machine/Session.lean ====
section
/-! DEFINITION. The meanings of the session events NOP (R122), EOC (R121) and RST (R170), and what a reserved word does (R66,
R157). -/

namespace Sys2Proof.Machine

/-- R122: NOP changes nothing, in every state. -/
def execNop (s : State) : Result := .next s

/-- R121, R154: EOC halts; in a frame attempt it is a truncated capture, reported by nothing. -/
def execEoc (s : State) : Result :=
  match s.st with
  | .halted => .next s
  | .idle => .next (s.goto .halted)
  | .ascA => .next (s.takeCondition .truncatedCapture)
  | .ascP => .next (s.takeCondition .truncatedCapture)
  | .ifA => .next (s.takeCondition .truncatedCapture)
  | .ifP => .next (s.takeCondition .truncatedCapture)

/-- R170: RST, in every state. The words still waiting in `IN` are the environment's and stay (R30, R49). -/
def execRst (s : State) : Result := .next { State.reset with input := s.input }

/-- R66, R157, R120: a reserved word raises ILL and does nothing else; when halted it does nothing at all. -/
def reservedEvent (s : State) : Result :=
  if s.st = .halted then .next s else .next (s.takeCondition .ill)

end Sys2Proof.Machine
end

