-- ==== Sys2Proof/Machine/Dispatch.lean ====
section
/-! DEFINITION. The meaning of every event, one arm for each row of R60's table. -/

namespace Sys2Proof.Machine

/-- R60: the meaning of an event, by the rule its row names. -/
def exec (i : Instr) (s : State) : Host.Outcome State Fault Refusal :=
  match i with
  | .nop => Sys2Proof.Machine.execNop s
  | .f0 x => Sys2Proof.Machine.execF0 x s
  | .r0 x => Sys2Proof.Machine.execR0 x s
  | .f1 x => Sys2Proof.Machine.execF1 x s
  | .r1 x => Sys2Proof.Machine.execR1 x s
  | .rate hz => Sys2Proof.Machine.execRate hz s
  | .opt acc bord var dir => Sys2Proof.Machine.execOpt acc bord var dir s
  | .eoc => Sys2Proof.Machine.execEoc s
  | .rst => Sys2Proof.Machine.execRst s

end Sys2Proof.Machine
end

