-- ==== Sys2Proof/Machine/Step.lean ====
section
/-! DEFINITION. One step: the block consumes the next word of `IN`, decodes it and runs it (R6, R44, R47, R67). -/

namespace Sys2Proof.Machine

/-- R67, R66: what a word does, an event or a reserved encoding. -/
def runWord (w : EventWord) (s : State) : Host.Outcome State Fault Refusal :=
  match decode w with
  | .ok i => exec i s
  | .error _ => reservedEvent s

/-- R40, R47: a step takes the first word of `IN`. With no word there the block waits (R164, R173): the step answers the state
unchanged. DESIGN CHOICE (safe, entry 2). -/
def step (s : State) : Host.Outcome State Fault Refusal :=
  match s.input with
  | [] => .next s
  | w :: rest => runWord w { s with input := rest }

/-- The environment delivers the word `w` as the next one of `IN` (entry 1). -/
def State.withFetchWord (s : State) (nbits w : Nat) : State :=
  { s with input := tableWord nbits w :: s.input }

end Sys2Proof.Machine
end

