-- ==== Sys2Proof/Safety.lean ====
section
/-! DEFINITION. What claims are stated in: the invariants the spec gives (R14, R19, R20, R26, R27, R43, R64), what a state
specifies where R31 leaves registers without a value, a run as the fold of R44, and the operations two runs are compared by. -/

namespace Sys2Proof.Machine

/-- R9: a frame attempt is in progress. -/
abbrev Phase.inAttempt (p : Phase) : Prop := p = .ascA ∨ p = .ascP ∨ p = .ifA ∨ p = .ifP

/-- A start pulse has been confirmed and the frame is not over (R106, R117, R118). -/
abbrev Phase.inFrame (p : Phase) : Prop := p = .ifA ∨ p = .ifP

/-- R19 (a): the valid history entries strictly increase in time. -/
abbrev State.historyOrdered (s : State) : Prop :=
  (2 ≤ s.ehc.val → s.t1.toNat < s.t0.toNat) ∧ (s.ehc.val = 3 → s.t2.toNat < s.t1.toNat)

/-- R19 (b): how many entries each state of an attempt has. -/
abbrev State.historyCounted (s : State) : Prop :=
  (s.st = .ascA → 1 ≤ s.ehc.val) ∧ (s.st = .ascP → 2 ≤ s.ehc.val) ∧ (s.st.inFrame → s.ehc.val = 3)

/-- R14: in a frame, `RAW < 2^BI`. -/
abbrev State.rawBelowIndex (s : State) : Prop := s.st.inFrame → s.raw.toNat < 2 ^ s.bi.val

/-- R15: in a frame, `FS` is no later than the oldest history entry. -/
abbrev State.frameStartOrdered (s : State) : Prop := s.st.inFrame → s.fs.toNat ≤ s.t2.toNat

/-- R100: no attempt without a sample rate. -/
abbrev State.attemptConfigured (s : State) : Prop := s.st.inAttempt → s.cfgd = true

/-- R16: in the one-wire variant an attempt is a transmit one. -/
abbrev State.directionLegal (s : State) : Prop := s.st.inAttempt → s.var = .oneWire → s.dirf = .tx

/-- The invariant of the sequencer, the accumulator and the history. -/
abbrev State.Inv (s : State) : Prop :=
  s.historyOrdered ∧ s.historyCounted ∧ s.rawBelowIndex ∧ s.frameStartOrdered ∧ s.attemptConfigured ∧ s.directionLegal

/-- R21, R26, R27: once a rate is accepted it is not 0, and the three tables are the ones R76 builds from it. -/
abbrev State.tablesFollowRate (s : State) : Prop :=
  s.cfgd = true → s.rate ≠ 0 ∧ s.thr = buildThr s.rate ∧ s.wlo = buildWlo s.rate ∧ s.whi = buildWhi s.rate

/-- R64: what a payload may hold in each category. -/
def Annotation.payloadLegal (a : Annotation) : Bool :=
  match a.category with
  | .start => a.payload == 0
  | .endPulse => a.payload == 0
  | .error => a.payload == 0
  | .bit => a.payload.toNat < 40
  | .parity => a.payload.toNat == 10 || a.payload.toNat == 26
  | .frameTx => a.payload.extractLsb' 42 6 == 0#6 && a.payload.extractLsb' 40 2 != 3#2
  | .frameRx => a.payload.extractLsb' 42 6 == 0#6 && a.payload.extractLsb' 40 2 != 3#2

/-- R43, R64: every record begins before it ends and has its category's payload. -/
abbrev State.recordsLegal (s : State) : Prop :=
  ∀ a ∈ s.out, a.startSample.toNat < a.endSample.toNat ∧ a.payloadLegal = true

/-- The premise of 93_implementation_defined.md section 3: no fault flag is set. -/
abbrev State.faultFree (s : State) : Prop := s.fault = FaultFlags.clear

/-- What a state specifies (R31, R18, R20, R15): the history entries that `EHC` counts, the rate and the tables once `CFGD` is
set, `FS` in a confirmed frame, and every other register. What it does not specify is put to the reset value. -/
def State.specified (s : State) : State :=
  { s with
    t0 := if 1 ≤ s.ehc.val then s.t0 else 0
    t1 := if 2 ≤ s.ehc.val then s.t1 else 0
    t2 := if s.ehc.val = 3 then s.t2 else 0
    fs := if s.st.inFrame then s.fs else 0
    rate := if s.cfgd = true then s.rate else 0
    thr := if s.cfgd = true then s.thr else SymbolTable.zero
    wlo := if s.cfgd = true then s.wlo else SymbolTable.zero
    whi := if s.cfgd = true then s.whi else SymbolTable.zero }

/-- The state with the stream `IN` put to `l`. -/
def State.withInput (s : State) (l : List EventWord) : State := { s with input := l }

/-- The same answer with its next state changed by `f`. -/
def mapNext (f : State → State) : Host.Outcome State Fault Refusal → Host.Outcome State Fault Refusal
  | .next s => .next (f s)
  | .fault r => .fault r
  | .refused r => .refused r

/-- The state without the registers no rule reads: `RATE` (R21), `DIR` (R25), `FAULT` (R28). -/
def State.withoutUnread (s : State) : State :=
  { s with rate := 0, dir := .tx, fault := FaultFlags.clear }

/-- A record moved by `k` samples. -/
def Annotation.shift (k : Sample) (a : Annotation) : Annotation :=
  { a with startSample := a.startSample + k, endSample := a.endSample + k }

/-- A state all of whose sample indices are moved by `k`. -/
def State.shift (k : Sample) (s : State) : State :=
  { s with
    t0 := s.t0 + k
    t1 := s.t1 + k
    t2 := s.t2 + k
    fs := s.fs + k
    out := s.out.map (Annotation.shift k) }

/-- No sample index of the history wraps when moved by `k`. -/
abbrev State.shiftable (k : Sample) (s : State) : Prop :=
  s.t0.toNat + k.toNat < 2 ^ 64 ∧ s.t1.toNat + k.toNat < 2 ^ 64 ∧ s.t2.toNat + k.toNat < 2 ^ 64

/-- What a qualifying edge of the attempt's own channel needs to be recorded and reach the rule of state `p` (R101, R102): the
attempt is in `p`, a rate is known, a receive attempt is a two-wire one (R16), `n` entries are recorded (R19) and `x` is later than
the last of them. -/
abbrev State.awaits (s : State) (p : Phase) (n : Nat) (x : Sample) : Prop :=
  s.st = p ∧ s.cfgd = true ∧ (s.dirf = .rx → s.var = .twoWire) ∧ n ≤ s.ehc.val ∧ s.t0.toNat < x.toNat

/-- R109: the pair that ends at `x` passes the one-bit test. -/
abbrev State.pairIsOne (s : State) (x : Sample) : Prop :=
  s.matchesSymbol .oa (s.t0.toNat - s.t1.toNat : Int) = true ∧ s.matchesSymbol .op (x.toNat - s.t0.toNat : Int) = true

/-- R109: the pair that ends at `x` passes the zero-bit test. -/
abbrev State.pairIsZero (s : State) (x : Sample) : Prop :=
  s.matchesSymbol .za (s.t0.toNat - s.t1.toNat : Int) = true ∧ s.matchesSymbol .zp (x.toNat - s.t0.toNat : Int) = true

/-- R109, R115: the active segment of the pair under way passes the two-wire end-pulse test. -/
abbrev State.pairIsEnd (s : State) : Prop :=
  s.var = .twoWire ∧ s.matchesSymbol .ep (s.t0.toNat - s.t1.toNat : Int) = true

/-- R44: a run as the fold of the meanings over a trace of events. -/
def runEvents : List Instr → State → Host.Outcome State Fault Refusal
  | [], s => .next s
  | i :: is, s =>
    match exec i s with
    | .next t => runEvents is t
    | .fault r => .fault r
    | .refused r => .refused r

end Sys2Proof.Machine
end

