-- ==== Sys2Proof/Certificates/Slice0/Obligations.lean ====
section
/-! DEFINITION. The statements about PWMDEC for the provers: the encodings, what each event does and leaves alone, the matcher and
the assembler, and the invariants every step keeps. -/

open Sys2Proof Sys2Proof.Machine

/-! ## Encodings -/

/-- R55 to R61: the decoder reads back every event that the encoder writes, at every value of every operand. -/
def Obligations.DecodeOfEncodeIsTheEvent : Prop :=
  ∀ i : Instr, decode (encode i) = .ok i

/-- R60: a row selects a word iff the decoder reads an event of that row from it; the rows are disjoint; a word that no row
selects is reserved. -/
def Obligations.OpcodeRowsSelectWhatTheDecoderReads : Prop :=
  (∀ w : EventWord, ∀ r ∈ opcodeRows,
    r.selects w = true ↔ ∃ i, decode w = .ok i ∧ i.mnemonic = r.mnemonic) ∧
  (∀ w : EventWord, ∀ r ∈ opcodeRows, ∀ r' ∈ opcodeRows, r.selects w = true → r'.selects w = true → r = r') ∧
  (∀ w : EventWord, (∀ r ∈ opcodeRows, r.selects w = false) ↔ w.reserved = true)

/-- R66: which words are reserved, that one raises ILL and does nothing else, that one received when halted does nothing at all,
and that the unused bits of NOP, RST and EOC carry no meaning. -/
def Obligations.ReservedWordsRaiseIll : Prop :=
  (∀ w : EventWord, (∃ r, decode w = .error r) ↔ w.reserved = true) ∧
  (∀ (w : EventWord) (s : State), w.reserved = true → s.st ≠ .halted →
    runWord w s = .next { s with fault := { s.fault with ill := true } }) ∧
  (∀ (w : EventWord) (s : State), w.reserved = true → s.st = .halted → runWord w s = .next s) ∧
  (∀ w : EventWord, w.opField = 0#4 → decode w = .ok .nop) ∧
  (∀ w : EventWord, w.opField = 15#4 → decode w = .ok .rst) ∧
  (∀ w : EventWord, w.opField = 4#4 → w.argField = 0#4 → decode w = .ok .eoc)

/-- 95_test_vectors.md section 3.7: words written out in the spec decode to the events it says. -/
def Obligations.SpecWordsDecodeAsListed : Prop :=
  decodeTableWord 72 0x0a00000000deadbeef = some .nop ∧
  decodeTableWord 72 0x100000000000002ee0 = some (.f0 12000) ∧
  decodeTableWord 72 0x11ffffffffffffffff = some (.r0 18446744073709551615) ∧
  decodeTableWord 72 0x1200000000000001f4 = some (.f1 500) ∧
  decodeTableWord 72 0x1300000000000030d4 = some (.r1 12500) ∧
  decodeTableWord 72 0x2000000000000f4240 = some (.rate 1000000) ∧
  decodeTableWord 72 0x300000000000000705 = some (.opt 5 .lsbFirst .oneWire .rx) ∧
  decodeTableWord 72 0x40000000000001e240 = some .eoc ∧
  decodeTableWord 72 0xf7123456789abcdef0 = some .rst ∧
  decodeTableWord 72 0x300000000000000085 = none

/-- R45 (D31): the bytes of a serialised word are its bytes, least significant first, and reading them gives the word's event and
leaves the bytes after it. -/
def Obligations.SerialisedWordsReadBack : Prop :=
  ∀ (w : EventWord) (rest : List Byte),
    (∀ k < 9, (serialise w)[k]? = some (w.extractLsb' (8 * k) 8)) ∧
    decodeBytes (serialise w ++ rest) = (decode w).map fun i => (i, rest)

/-- R62, R63: the packed record holds each field where R62 puts it, and the category codes are distinct and at most 6. -/
def Obligations.PackedRecordsKeepTheirFields : Prop :=
  (∀ a : Annotation, a.pack.extractLsb' 0 48 = a.payload ∧ a.pack.extractLsb' 48 64 = a.endSample ∧
    a.pack.extractLsb' 112 64 = a.startSample ∧ a.pack.extractLsb' 176 4 = a.category.code) ∧
  (∀ c c' : Category, c.code = c'.code → c = c') ∧ ∀ c : Category, c.code.toNat ≤ 6

/-! ## The step and the run -/

/-- R44, R47, R67: a step takes the first word of IN and runs the event it decodes to; what stays in IN is the rest. That IN is a
field of the state is the model's (entry 1). -/
def Obligations.StepRunsTheDecodedEvent : Prop :=
  ∀ (s : State) (w : EventWord) (rest : List EventWord) (i : Instr),
    s.input = w :: rest → decode w = .ok i → step s = exec i { s with input := rest }

/-- The model's choice (entry 2): with no word in IN a step changes nothing. -/
def Obligations.StepWaitsForAWord : Prop :=
  ∀ s : State, s.input = [] → step s = .next s

/-- R40: an event does not look ahead in IN, and leaves it as it finds it. -/
def Obligations.EventsDoNotSeeTheInputStream : Prop :=
  ∀ (i : Instr) (s : State) (l : List EventWord),
    exec i { s with input := l } = mapNext (fun t => { t with input := l }) (exec i s)

/-- R44: consuming the words of a trace one step each is folding the events' meanings over the trace. -/
def Obligations.RunIsTheFoldOfTheTrace : Prop :=
  ∀ (is : List Instr) (s : State), s.input = is.map encode →
    Sys2Proof.core.run is.length s = runEvents is { s with input := [] }

/-! ## Reset and the session events -/

/-- R31: the registers to which the spec gives a reset value have it in the reset state. -/
def Obligations.ResetStateHoldsTheSpecifiedValues : Prop :=
  State.reset.st = .idle ∧ State.reset.bi = 0 ∧ State.reset.raw = 0 ∧ State.reset.dirf = .tx ∧
  State.reset.ehc = 0 ∧ State.reset.cfgd = false ∧ State.reset.acc = 5 ∧ State.reset.bord = .msbFirst ∧
  State.reset.var = .twoWire ∧ State.reset.dir = .tx ∧ State.reset.fault.bits = 0 ∧ State.reset.out = []

/-- R170: RST gives every register that has a reset value that value, whatever the state, leaves no history entry and no rate
valid, and empties OUT. That IN is left alone is the model's choice (entry 10), and so is the value 0 in the registers that hold no
value (entry 3), on which the statement does not rest. -/
def Obligations.RstResetsEveryState : Prop :=
  ∀ s : State, ∃ t, exec .rst s = .next t ∧
    t.st = .idle ∧ t.ehc = 0 ∧ t.bi = 0 ∧ t.raw = 0 ∧ t.dirf = .tx ∧ t.cfgd = false ∧ t.acc = 5 ∧
    t.bord = .msbFirst ∧ t.var = .twoWire ∧ t.dir = .tx ∧ t.fault = ⟨false, false, false, false⟩ ∧ t.out = [] ∧
    t.input = s.input ∧ t.specified = State.reset.specified.withInput s.input

/-- R122: NOP changes nothing, in every state. -/
def Obligations.NopChangesNothing : Prop :=
  ∀ s : State, exec .nop s = .next s

/-- R121: EOC sets ST to HALTED in every state and changes no other register. -/
def Obligations.EocHaltsAndChangesNothingElse : Prop :=
  ∀ s : State, exec .eoc s = .next { s with st := .halted }

/-- R120: when halted, every event but RST and every reserved word is ignored. -/
def Obligations.HaltedIgnoresAllButRst : Prop :=
  (∀ (i : Instr) (s : State), s.st = .halted → i ≠ .rst → exec i s = .next s) ∧
  (∀ (w : EventWord) (s : State), s.st = .halted → decode w ≠ .ok .rst → runWord w s = .next s)

/-- R120, over runs: a trace without RST leaves a halted block as it is, however long it is. -/
def Obligations.HaltedBlockStaysHalted : Prop :=
  ∀ (is : List Instr) (s : State), s.st = .halted → Instr.rst ∉ is → runEvents is s = .next s

/-! ## Configuration -/

/-- R77: RATE in IDLE with a rate that is not 0 stores the rate, builds the tables and sets CFGD; with rate 0 it raises CFG and
halts; during an attempt it raises ILL; when halted it does nothing. -/
def Obligations.RateEventByState : Prop :=
  ∀ (hz : BitVec 32) (s : State),
    (s.st = .idle → hz ≠ 0 →
      exec (.rate hz) s = .next { s with
        rate := hz, thr := buildThr hz, wlo := buildWlo hz, whi := buildWhi hz, cfgd := true }) ∧
    (s.st = .idle → hz = 0 →
      exec (.rate hz) s = .next { s with fault := { s.fault with cfg := true }, st := .halted }) ∧
    (s.st.inAttempt → exec (.rate hz) s = .next { s with fault := { s.fault with ill := true } }) ∧
    (s.st = .halted → exec (.rate hz) s = .next s)

/-- R76: each of the 21 entries is the exact floor of microseconds times rate over a million. -/
def Obligations.TableEntriesAreExactFloors : Prop :=
  ∀ (hz : BitVec 32) (sym : Symbol),
    ((buildThr hz).get sym).toNat = twoWireMicros sym * hz.toNat / 1000000 ∧
    ((buildWlo hz).get sym).toNat = (oneWireWindow sym).lo.toNat * hz.toNat / 1000000 ∧
    ((buildWhi hz).get sym).toNat = (oneWireWindow sym).hi.toNat * hz.toNat / 1000000

/-- R83: doubling the rate doubles every two-wire threshold, or doubles it and adds one. -/
def Obligations.ThresholdsScaleWithTheRate : Prop :=
  ∀ (r r2 : BitVec 32) (sym : Symbol), r ≠ 0 → r2.toNat = 2 * r.toNat →
    2 * ((buildThr r).get sym).toNat ≤ ((buildThr r2).get sym).toNat ∧
    ((buildThr r2).get sym).toNat ≤ 2 * ((buildThr r).get sym).toNat + 1

/-- R78: OPT in IDLE writes the four options and nothing else; during an attempt it raises ILL and writes nothing else; when halted
it does nothing. -/
def Obligations.OptEventByState : Prop :=
  ∀ (acc : BitVec 7) (bord : BitOrder) (var : Variant) (dir : Direction) (s : State),
    (s.st = .idle →
      exec (.opt acc bord var dir) s = .next { s with acc := acc, bord := bord, var := var, dir := dir }) ∧
    (s.st.inAttempt →
      exec (.opt acc bord var dir) s = .next { s with fault := { s.fault with ill := true } }) ∧
    (s.st = .halted → exec (.opt acc bord var dir) s = .next s)

/-- R50, R180: no event but RST changes any configuration register during a frame attempt. -/
def Obligations.ConfigurationIsFrozenInAnAttempt : Prop :=
  ∀ (i : Instr) (s t : State), i ≠ .rst → s.st.inAttempt → exec i s = .next t →
    t.cfgd = s.cfgd ∧ t.rate = s.rate ∧ t.acc = s.acc ∧ t.bord = s.bord ∧ t.var = s.var ∧ t.dir = s.dir ∧
    t.thr = s.thr ∧ t.wlo = s.wlo ∧ t.whi = s.whi

/-- R20: CFGD is 0 after reset, is set by an accepted RATE and by nothing else, is cleared only by RST, and while it is 0 every
edge event is ignored. -/
def Obligations.CfgdIsSetByAcceptedRateOnly : Prop :=
  State.reset.cfgd = false ∧
  (∀ s t : State, exec .rst s = .next t → t.cfgd = false) ∧
  (∀ (i : Instr) (s t : State), i ≠ .rst → exec i s = .next t →
    (t.cfgd = true ↔ s.cfgd = true ∨ (s.st = .idle ∧ ∃ hz : BitVec 32, hz ≠ 0 ∧ i = .rate hz))) ∧
  (∀ (ch : Channel) (pol : Polarity) (x : Sample) (s : State), s.cfgd = false →
    exec (.edge ch pol x) s = .next s)

/-! ## The matcher -/

/-- R79, R80, R81: the comparison is strict on both sides, by percentage in the two-wire variant and by window in the one-wire
variant. -/
def Obligations.MatcherIsStrictInBothVariants : Prop :=
  (∀ d t a : Int, near d t a = true ↔ t * (100 - a) < 100 * d ∧ 100 * d < t * (100 + a)) ∧
  (∀ d lo hi : Int, inwin d lo hi = true ↔ lo < d ∧ d < hi) ∧
  (∀ (s : State) (sym : Symbol) (d : Int),
    (s.var = .twoWire → s.matchesSymbol sym d = near d ((s.thr.get sym).toNat) (s.acc.toNat)) ∧
    (s.var = .oneWire →
      s.matchesSymbol sym d = inwin d ((s.wlo.get sym).toNat) ((s.whi.get sym).toNat)))

/-- R82: the degenerate cases of the matcher, (a) to (g). -/
def Obligations.NearDegenerateCases : Prop :=
  (∀ d a : Nat, near d 0 a = false) ∧
  (∀ d t : Nat, near d t 0 = false) ∧
  (∀ t a : Nat, near t t a = true ↔ 1 ≤ t ∧ 1 ≤ a) ∧
  (∀ d t a : Nat, 100 * d = t * (100 + a) → near d t a = false) ∧
  (∀ d t a : Nat, a ≤ 100 → 100 * d = t * (100 - a) → near d t a = false) ∧
  (∀ e t a : Nat, e ≤ t →
    (near ((t : Int) - e) t a = near ((t : Int) + e) t a) ∧ (near ((t : Int) + e) t a = true ↔ 100 * e < t * a)) ∧
  (∀ d t a : Nat, 100 < a → 1 ≤ t → (near d t a = true ↔ 100 * d < t * (100 + a))) ∧
  (∀ d lo hi : Nat, hi ≤ lo + 1 → inwin d lo hi = false)

/-- R85: the integers that match are exactly those from `dmin` to `dmax`, and the table of the rule at 1 MHz and 5 percent. -/
def Obligations.NearHoldsOnAnIntervalOfIntegers : Prop :=
  (∀ d t a : Nat, 1 ≤ t → 1 ≤ a → a ≤ 100 →
    (near d t a = true ↔ t * (100 - a) / 100 + 1 ≤ d ∧ d ≤ (t * (100 + a) + 99) / 100 - 1)) ∧
  (∀ d : Nat,
    (near d 12000 5 = true ↔ 11401 ≤ d ∧ d ≤ 12599) ∧ (near d 1270 5 = true ↔ 1207 ≤ d ∧ d ≤ 1333) ∧
    (near d 3000 5 = true ↔ 2851 ≤ d ∧ d ≤ 3149) ∧ (near d 1000 5 = true ↔ 951 ≤ d ∧ d ≤ 1049) ∧
    (near d 19000 5 = true ↔ 18051 ≤ d ∧ d ≤ 19949))

/-- R86, at 1 MHz: the three in-frame active windows are pairwise disjoint exactly for an accuracy of at most 50, and those of the
one-bit and the end pulse exactly for at most 72. -/
def Obligations.InFrameWindowsDisjointUpToFifty : Prop :=
  ∀ a : Nat, a ≤ 127 →
    ((∀ d : Nat, ¬ (near d 1000 a = true ∧ near d 3000 a = true) ∧ ¬ (near d 1000 a = true ∧ near d 19000 a = true) ∧
      ¬ (near d 3000 a = true ∧ near d 19000 a = true)) ↔ a ≤ 50) ∧
    ((∀ d : Nat, ¬ (near d 3000 a = true ∧ near d 19000 a = true)) ↔ a ≤ 72)

/-- R127: at 1 MHz and 5 percent, what a two-wire pair of an active segment `a` and a passive segment `p` is. -/
def Obligations.TwoWirePairClassesAtOneMegahertz : Prop :=
  ∀ (s : State) (a p : Nat), s.var = .twoWire → s.thr = buildThr 1000000 → s.acc = 5 → 1 ≤ a → 1 ≤ p →
    (s.classifyPair a p = .oneBit ↔ (2851 ≤ a ∧ a ≤ 3149) ∧ (951 ≤ p ∧ p ≤ 1049)) ∧
    (s.classifyPair a p = .zeroBit ↔ (951 ≤ a ∧ a ≤ 1049) ∧ (951 ≤ p ∧ p ≤ 1049)) ∧
    (s.classifyPair a p = .endPulse ↔ 18051 ≤ a ∧ a ≤ 19949) ∧
    (s.classifyPair a p = .mismatch ↔
      ¬ ((2851 ≤ a ∧ a ≤ 3149) ∧ (951 ≤ p ∧ p ≤ 1049)) ∧ ¬ ((951 ≤ a ∧ a ≤ 1049) ∧ (951 ≤ p ∧ p ≤ 1049)) ∧
      ¬ (18051 ≤ a ∧ a ≤ 19949))

/-- C5 and section 1.6 of 95_test_vectors.md: after RATE 1000000 the one-wire start-active window is 11501 to 12499, whatever the
open windows are, and the accuracy does not enter. -/
def Obligations.OneWireStartWindowAtOneMegahertz : Prop :=
  ∀ (s t : State) (d : Nat), s.st = .idle → s.var = .oneWire → exec (.rate 1000000) s = .next t →
    (t.matchesSymbol .sa d = true ↔ 11501 ≤ d ∧ d ≤ 12499)

/-! ## The edge tracker -/

/-- R91, R92, R93, R94: record shifts the history, clear empties it by the count alone, and an interval exists exactly when its
precondition holds; the last clause is the model's form of the refusal U2 asks for (entry 5). -/
def Obligations.HistoryPrimitives : Prop :=
  ∀ (s : State) (x : Sample),
    s.record x = { s with t2 := s.t1, t1 := s.t0, t0 := x, ehc := ⟨min (s.ehc.val + 1) 3, by omega⟩ } ∧
    s.clearHistory = { s with ehc := 0 } ∧
    (2 ≤ s.ehc.val → s.mostRecentInterval = some ((s.t0.toNat : Int) - s.t1.toNat)) ∧
    (s.ehc.val = 3 → s.priorInterval 1 = some ((s.t1.toNat : Int) - s.t2.toNat)) ∧
    s.priorInterval 0 = s.mostRecentInterval ∧
    (s.ehc.val < 2 → s.mostRecentInterval = none) ∧ (s.ehc.val < 3 → s.priorInterval 1 = none)

/-! ## The edge events: which qualify, and where each completes -/

/-- R68: an edge qualifies iff a rate is known and its bit of `wspec` is set. In the states for which R68 has no row, a one-wire
receive attempt, both sides are the model's (entry 7). -/
def Obligations.WspecBitsAreTheQualifyingEdges : Prop :=
  ∀ (s : State) (ch : Channel) (pol : Polarity),
    s.wspec.getLsbD (wspecBit ch pol) = (s.cfgd && s.qualifies ch pol)

/-- R119: an edge whose bit of `wspec` is clear is ignored completely. -/
def Obligations.NonQualifyingEdgesAreIgnored : Prop :=
  ∀ (s : State) (ch : Channel) (pol : Polarity) (x : Sample),
    s.wspec.getLsbD (wspecBit ch pol) = false → exec (.edge ch pol x) s = .next s

/-- R125, R126: in the one-wire variant R1 and F1 are ignored in every state. -/
def Obligations.ChannelOneIsIgnoredInOneWire : Prop :=
  ∀ (s : State) (x : Sample), s.var = .oneWire → exec (.r1 x) s = .next s ∧ exec (.f1 x) s = .next s

/-- R103: in IDLE, R0 starts a transmit attempt in both variants and F1 a receive attempt in the two-wire variant; nothing is
emitted; and the edge of the other channel at the same sample then no longer qualifies. -/
def Obligations.EdgeInIdleStartsAnAttempt : Prop :=
  ∀ (s : State) (x : Sample), s.st = .idle → s.cfgd = true →
    (∃ a b t, exec (.r0 x) s = .next t ∧
      t = { s with st := .ascA, dirf := .tx, ehc := 1, t0 := x, t1 := a, t2 := b } ∧ exec (.f1 x) t = .next t) ∧
    (s.var = .twoWire → ∃ a b t, exec (.f1 x) s = .next t ∧
      t = { s with st := .ascA, dirf := .rx, ehc := 1, t0 := x, t1 := a, t2 := b } ∧ exec (.r0 x) t = .next t)

/-- R104: F0 (transmit) or R1 (receive) in ASC_A is recorded, and leads to ASC_P if the start-active duration matches SA and
silently to IDLE if not. -/
def Obligations.StartActiveEndsInAscA : Prop :=
  ∀ (s : State) (x : Sample), s.awaits .ascA 1 x →
    (s.dirf = .tx → exec (.f0 x) s = .next { (s.record x) with
      st := if s.matchesSymbol .sa ((x.toNat : Int) - s.t0.toNat) = true then .ascP else .idle }) ∧
    (s.dirf = .rx → exec (.r1 x) s = .next { (s.record x) with
      st := if s.matchesSymbol .sa ((x.toNat : Int) - s.t0.toNat) = true then .ascP else .idle })

/-- R105, R106: R0 (transmit) or F1 (receive) in ASC_P is recorded; if the start-passive duration matches SP the start pulse is
confirmed, with its record, FS, RAW and BI; if not, the block is silently in IDLE. -/
def Obligations.StartPassiveEndsInAscP : Prop :=
  ∀ (s : State) (x : Sample) (i : Instr), s.awaits .ascP 2 x →
    ((s.dirf = .tx ∧ i = .r0 x) ∨ (s.dirf = .rx ∧ i = .f1 x)) →
    (s.matchesSymbol .sp ((x.toNat : Int) - s.t0.toNat) = true →
      exec i s = .next { (s.record x) with
        st := .ifA, fs := s.t1, raw := 0, bi := 0, out := s.out ++ [⟨s.t1, x, .start, 0⟩] }) ∧
    (s.matchesSymbol .sp ((x.toNat : Int) - s.t0.toNat) = false →
      exec i s = .next { (s.record x) with st := .idle })

/-- R107, R108: F0 (transmit) or R1 (receive) in IF_A is recorded. The two-wire variant goes to IF_P; the one-wire variant completes
the frame there if the segment fails OA and matches EP, with the end-pulse record and then the frame value, and goes to IF_P if
not. -/
def Obligations.ActiveSegmentEndsInIfA : Prop :=
  ∀ (s : State) (x : Sample), s.awaits .ifA 3 x →
    (s.var = .twoWire → s.dirf = .tx → exec (.f0 x) s = .next { (s.record x) with st := .ifP }) ∧
    (s.var = .twoWire → s.dirf = .rx → exec (.r1 x) s = .next { (s.record x) with st := .ifP }) ∧
    (s.var = .oneWire →
      exec (.f0 x) s = .next
        (if s.matchesSymbol .oa ((x.toNat : Int) - s.t0.toNat) = false ∧
            s.matchesSymbol .ep ((x.toNat : Int) - s.t0.toNat) = true then
          { (s.record x) with st := .idle, out := s.out ++ [⟨s.t0, x, .endPulse, 0⟩, s.frameRecord x] }
        else { (s.record x) with st := .ifP }))

/-- R110 to R113: R0 (transmit) or F1 (receive) in IF_P that ends a one-bit or a zero-bit pair, with BI at most 39: bit BI of RAW is
set by a one-bit and left by a zero-bit, BI goes up by one, and the pair's record carries the index before that, in the parity
category at 10 and 26 of a two-wire frame. -/
def Obligations.BitPairIsAccepted : Prop :=
  ∀ (s : State) (x : Sample) (i : Instr) (b : Bool) (n : BitIndex), s.awaits .ifP 3 x →
    ((s.dirf = .tx ∧ i = .r0 x) ∨ (s.dirf = .rx ∧ i = .f1 x)) →
    ((b = true ∧ s.pairIsOne x) ∨ (b = false ∧ ¬ s.pairIsOne x ∧ s.pairIsZero x)) → n.val = s.bi.val + 1 →
    exec i s = .next { (s.record x) with
      st := .ifA
      bi := n
      raw := if b then s.raw ||| 1#40 <<< s.bi.val else s.raw
      out := s.out ++ [⟨s.t1, x,
        if s.var = .twoWire ∧ (s.bi.val = 10 ∨ s.bi.val = 26) then .parity else .bit,
        BitVec.ofNat 48 s.bi.val⟩] }

/-- R114, R156: a bit pair with BI = 40 raises OVL, gives one ERROR record and drops the frame; RAW and BI keep their values. -/
def Obligations.FortyFirstBitRaisesOvl : Prop :=
  ∀ (s : State) (x : Sample) (i : Instr), s.awaits .ifP 3 x →
    ((s.dirf = .tx ∧ i = .r0 x) ∨ (s.dirf = .rx ∧ i = .f1 x)) →
    (s.pairIsOne x ∨ s.pairIsZero x) → s.bi.val = 40 →
    exec i s = .next { (s.record x) with
      st := .idle, fault := { s.fault with ovl := true }, out := s.out ++ [⟨s.t1, x, .error, 0⟩] }

/-- R115, R117: in the two-wire variant a pair that is no bit and whose active segment matches EP completes the frame with the
end-pulse span of that segment, then the frame value; the interval that followed is not tested. -/
def Obligations.TwoWireEndPulseCompletesTheFrame : Prop :=
  ∀ (s : State) (x : Sample) (i : Instr), s.awaits .ifP 3 x →
    ((s.dirf = .tx ∧ i = .r0 x) ∨ (s.dirf = .rx ∧ i = .f1 x)) →
    ¬ s.pairIsOne x → ¬ s.pairIsZero x → s.pairIsEnd →
    exec i s = .next { (s.record x) with
      st := .idle, out := s.out ++ [⟨s.t1, s.t0, .endPulse, 0⟩, s.frameRecord s.t0] }

/-- R118: a pair that passes no test gives exactly one ERROR record from the pair's start to the current sample and leads to IDLE;
no flag is set and RAW, BI and FS keep their values. -/
def Obligations.MismatchedPairIsAFrameError : Prop :=
  ∀ (s : State) (x : Sample) (i : Instr), s.awaits .ifP 3 x →
    ((s.dirf = .tx ∧ i = .r0 x) ∨ (s.dirf = .rx ∧ i = .f1 x)) →
    ¬ s.pairIsOne x → ¬ s.pairIsZero x → ¬ s.pairIsEnd →
    exec i s = .next { (s.record x) with st := .idle, out := s.out ++ [⟨s.t1, x, .error, 0⟩] }

/-- R102, R155: a qualifying edge of an attempt whose index does not exceed T0 is not recorded; it raises SEQ, emits nothing and
drops the attempt. -/
def Obligations.NonIncreasingSampleRaisesSeq : Prop :=
  ∀ (s : State) (ch : Channel) (pol : Polarity) (x : Sample), s.st.inAttempt → s.cfgd = true →
    s.qualifies ch pol = true → 1 ≤ s.ehc.val → x.toNat ≤ s.t0.toNat →
    exec (.edge ch pol x) s = .next { s with st := .idle, fault := { s.fault with seq := true } }

/-- The model's stop (entry 5), from R18's "Reading an invalid entry is forbidden": a qualifying edge of an attempt with no history
entry, or one that ends a pair or the start pulse with too few, would read an entry that is not there. -/
def Obligations.ForbiddenHistoryReadStops : Prop :=
  (∀ (s : State) (ch : Channel) (pol : Polarity) (x : Sample), s.st.inAttempt → s.cfgd = true →
    s.qualifies ch pol = true → s.ehc.val = 0 → exec (.edge ch pol x) s = .fault .historyReadForbidden) ∧
  (∀ (s : State) (ch : Channel) (pol : Polarity) (x : Sample), s.st = .ascP ∨ s.st = .ifP → s.cfgd = true →
    s.qualifies ch pol = true → s.ehc.val = 1 → s.t0.toNat < x.toNat →
    exec (.edge ch pol x) s = .fault .historyReadForbidden)

/-! ## The frame assembler -/

/-- R131: bit `j` of the reversed value is bit `39 - j` of the raw value for `j < n`, and 0 for the others. -/
def Obligations.ReversalIsAboutFortyBits : Prop :=
  ∀ (raw : RawWord) (n : BitIndex) (j : Nat), j < 40 →
    (rev40 raw n).getLsbD j = (decide (j < n.val) && raw.getLsbD (39 - j))

/-- R133: for a raw value below `2^n`, bit `j` of the reversed value can be set only for `40 - n <= j < n`, so 20 bits or fewer
reverse to 0. -/
def Obligations.ShortFramesReverseToZero : Prop :=
  ∀ (raw : RawWord) (n : BitIndex), raw.toNat < 2 ^ n.val →
    (∀ j, (rev40 raw n).getLsbD j = true → 40 - n.val ≤ j ∧ j < n.val) ∧ (n.val ≤ 20 → rev40 raw n = 0)

/-- R139: the reversal applied twice is 0 for 20 bits or fewer and the value itself for 40; below 40 bits it is no involution. -/
def Obligations.ReversalIsAnInvolutionOnlyAtForty : Prop :=
  ∀ (x : RawWord) (n : BitIndex),
    (n.val ≤ 20 → rev40 (rev40 x n) n = 0) ∧ (n.val = 40 → rev40 (rev40 x n) n = x) ∧
    (n.val < 40 → ∃ y, rev40 (rev40 y n) n ≠ y)

/-- R132, R134 to R137: the frame-value record of a frame that ends at `ee`. -/
def Obligations.FrameRecordLayout : Prop :=
  ∀ (s : State) (ee : Sample),
    (s.frameRecord ee).startSample = s.fs ∧ (s.frameRecord ee).endSample = ee ∧
    (s.frameRecord ee).category = (if s.var = .twoWire ∧ s.dirf = .rx then .frameRx else .frameTx) ∧
    (s.frameRecord ee).payload.toNat =
      (if s.bord = .lsbFirst then s.raw.toNat else (rev40 s.raw s.bi).toNat) +
      (if s.raw.getLsbD 10 = true then 1 else if s.raw.getLsbD 26 = true then 2 else 0) * 2 ^ 40

/-! ## What events leave alone -/

/-- R32, the EDGE column: an edge event writes no configuration register, no table, not FAULT.CFG and not FAULT.ILL, does not touch
IN, and only appends to OUT. -/
def Obligations.EdgeEventsFrame : Prop :=
  ∀ (s t : State) (ch : Channel) (pol : Polarity) (x : Sample), exec (.edge ch pol x) s = .next t →
    t.cfgd = s.cfgd ∧ t.rate = s.rate ∧ t.acc = s.acc ∧ t.bord = s.bord ∧ t.var = s.var ∧ t.dir = s.dir ∧
    t.thr = s.thr ∧ t.wlo = s.wlo ∧ t.whi = s.whi ∧ t.fault.cfg = s.fault.cfg ∧ t.fault.ill = s.fault.ill ∧
    t.input = s.input ∧ s.out <+: t.out

/-- R128, R13 to R16: BI changes only by the confirmation of a start pulse, to 0, and by a bit, plus one; RAW only by the same; FS
only by a confirmation; DIRF only by the edge that leaves IDLE, which is R0 or, in the two-wire variant, F1; and a frame is left
only to IDLE or HALTED. -/
def Obligations.AccumulatorChangesOnlyAsTheRulesSay : Prop :=
  ∀ (i : Instr) (s t : State), i ≠ .rst → exec i s = .next t →
    (t.bi = s.bi ∨ (s.st = .ascP ∧ t.st = .ifA ∧ t.bi = 0) ∨
      (s.st = .ifP ∧ t.st = .ifA ∧ t.bi.val = s.bi.val + 1)) ∧
    (t.raw = s.raw ∨ (s.st = .ascP ∧ t.st = .ifA ∧ t.raw = 0) ∨
      (s.st = .ifP ∧ t.st = .ifA ∧ t.raw = s.raw ||| 1#40 <<< s.bi.val)) ∧
    (t.fs = s.fs ∨ (s.st = .ascP ∧ t.st = .ifA ∧ t.fs = s.t1)) ∧
    (t.dirf = s.dirf ∨ (s.st = .idle ∧ t.st = .ascA ∧
      ((t.dirf = .tx ∧ ∃ x, i = .r0 x) ∨ (t.dirf = .rx ∧ s.var = .twoWire ∧ ∃ x, i = .f1 x)))) ∧
    (s.st.inFrame → t.st.inFrame ∨ t.st = .idle ∨ t.st = .halted)

/-- R28, R150, R155 to R157: each fault flag is set by its own cause and by nothing else, and stays set until RST. -/
def Obligations.FaultFlagsHaveTheirOwnCauses : Prop :=
  ∀ (i : Instr) (s t : State), i ≠ .rst → exec i s = .next t →
    (t.fault.cfg = true ↔ s.fault.cfg = true ∨ (s.st = .idle ∧ i = .rate 0)) ∧
    (t.fault.ill = true ↔ s.fault.ill = true ∨
      (s.st.inAttempt ∧ ((∃ hz, i = .rate hz) ∨ ∃ a b v d, i = .opt a b v d))) ∧
    (t.fault.seq = true ↔ s.fault.seq = true ∨ (s.st.inAttempt ∧ s.cfgd = true ∧
      ∃ ch pol x, i = .edge ch pol x ∧ s.qualifies ch pol = true ∧ x.toNat ≤ s.t0.toNat)) ∧
    (t.fault.ovl = true ↔ s.fault.ovl = true ∨ (s.st = .ifP ∧ s.cfgd = true ∧ s.bi.val = 40 ∧
      ∃ ch pol x, i = .edge ch pol x ∧ s.qualifies ch pol = true ∧ s.t0.toNat < x.toNat ∧
        (s.pairIsOne x ∨ s.pairIsZero x)))

/-- R160: one event, or one reserved word, raises at most one flag. -/
def Obligations.OneEventRaisesAtMostOneFlag : Prop :=
  ∀ (w : EventWord) (s t : State), decode w ≠ .ok .rst → runWord w s = .next t →
    t.fault = s.fault ∨ ∃ f, t.fault = s.fault.raise f

/-- R34, R43: no event reads OUT; every event but RST appends to it, at most two records. -/
def Obligations.OutputIsAppendOnly : Prop :=
  (∀ (i : Instr) (s : State), i ≠ .rst →
    exec i s = mapNext (fun t => { t with out := s.out ++ t.out }) (exec i { s with out := [] })) ∧
  (∀ (i : Instr) (s t : State), i ≠ .rst → exec i s = .next t → t.out.length ≤ s.out.length + 2)

/-- R21, R25, R28: RATE, DIR and FAULT are read by no rule: two states that differ only in them answer an event alike, but for
them. -/
def Obligations.InspectionRegistersAreNeverRead : Prop :=
  ∀ (i : Instr) (s s' : State), s.withoutUnread = s'.withoutUnread →
    mapNext State.withoutUnread (exec i s) = mapNext State.withoutUnread (exec i s')

/-- R18, R20, R31 (U6): what a register holds where the spec gives it no value never matters: two states that agree on all they
specify answer every event alike on all the answer specifies, records and fault flags included. -/
def Obligations.UnspecifiedRegistersNeverMatter : Prop :=
  ∀ (i : Instr) (s s' : State), s.specified = s'.specified →
    mapNext State.specified (exec i s) = mapNext State.specified (exec i s')

/-- R128: every rule of an edge event depends on sample indices only through differences: an attempt moved by `k` samples is decoded
to the same records moved by `k`. -/
def Obligations.EdgeEventsAreTranslationInvariant : Prop :=
  ∀ (s : State) (ch : Channel) (pol : Polarity) (x k : Sample), s.shiftable k → x.toNat + k.toNat < 2 ^ 64 →
    exec (.edge ch pol (x + k)) (s.shift k) = mapNext (State.shift k) (exec (.edge ch pol x) s)

/-! ## Invariants -/

/-- R19, R14, R15, R16, R100: the reset state meets the invariant, the table and the record conditions. -/
def Obligations.ResetMeetsTheInvariant : Prop :=
  State.reset.Inv ∧ State.reset.tablesFollowRate ∧ State.reset.recordsLegal ∧ State.reset.faultFree

/-- R19 and R14: every step from a state with the invariant leads to a state with the invariant. -/
def Obligations.EveryStepKeepsTheInvariant : Prop :=
  ∀ s t : State, s.Inv → step s = .next t → t.Inv

/-- R18: no step from a state with the invariant reads a history entry that is not there; so every step answers a next state.
That such a read would stop the model is its choice (entry 5). -/
def Obligations.EveryStepAnswersANextState : Prop :=
  ∀ s : State, s.Inv → ∃ t, step s = .next t

/-- R26, R27, R21: once a rate is accepted it is not 0 and the tables are the ones built from it; every step keeps that. -/
def Obligations.EveryStepKeepsTheTables : Prop :=
  ∀ s t : State, s.tablesFollowRate → step s = .next t → t.tablesFollowRate

/-- R43, R64: in every record the start is before the end and the payload is its category's; every step keeps that. -/
def Obligations.EveryStepKeepsRecordsLegal : Prop :=
  ∀ s t : State, s.Inv → s.recordsLegal → step s = .next t → t.recordsLegal
end

