-- ==== Sys2Proof/Laws/Matcher.lean ====
section
/-! SUPPORT. What the table builder and the matcher answer, so that no later proof unfolds them. -/

namespace Sys2Proof.Machine

@[simp] theorem SymbolTable.get_ofEntries (f : Symbol → Sample) (sym : Symbol) :
    (SymbolTable.ofEntries f).get sym = f sym := by
  cases sym <;> rfl

@[simp] theorem buildThr_get (hz : BitVec 32) (sym : Symbol) :
    (buildThr hz).get sym = scaleMicros (twoWireMicros sym) hz := SymbolTable.get_ofEntries _ _

@[simp] theorem buildWlo_get (hz : BitVec 32) (sym : Symbol) :
    (buildWlo hz).get sym = scaleMicros (oneWireWindow sym).lo.toNat hz := SymbolTable.get_ofEntries _ _

@[simp] theorem buildWhi_get (hz : BitVec 32) (sym : Symbol) :
    (buildWhi hz).get sym = scaleMicros (oneWireWindow sym).hi.toNat hz := SymbolTable.get_ofEntries _ _

/-- Every two-wire nominal fits 51 bits. -/
theorem twoWireMicros_lt (sym : Symbol) : twoWireMicros sym < 2 ^ 51 := by
  cases sym <;> norm_num [twoWireMicros]

theorem near_eq_true (d t a : Int) :
    near d t a = true ↔ t * (100 - a) < 100 * d ∧ 100 * d < t * (100 + a) := by
  simp [near]

theorem inwin_eq_true (d lo hi : Int) : inwin d lo hi = true ↔ lo < d ∧ d < hi := by
  simp [inwin]

theorem State.matchesSymbol_twoWire {s : State} (h : s.var = .twoWire) (sym : Symbol) (d : Int) :
    s.matchesSymbol sym d = near d (s.thr.get sym).toNat s.acc.toNat := by
  simp [State.matchesSymbol, h, accuracyValue]

theorem State.matchesSymbol_oneWire {s : State} (h : s.var = .oneWire) (sym : Symbol) (d : Int) :
    s.matchesSymbol sym d = inwin d (s.wlo.get sym).toNat (s.whi.get sym).toNat := by
  simp [State.matchesSymbol, h]

/-- The matcher reads only `VAR`, `ACC` and the tables (R81). -/
theorem State.matchesSymbol_congr {s s' : State} (hv : s.var = s'.var) (ha : s.acc = s'.acc) (ht : s.thr = s'.thr)
    (hl : s.wlo = s'.wlo) (hh : s.whi = s'.whi) (sym : Symbol) (d : Int) :
    s.matchesSymbol sym d = s'.matchesSymbol sym d := by
  simp [State.matchesSymbol, hv, ha, ht, hl, hh]

end Sys2Proof.Machine
end

