-- ==== Sys2Proof/Laws/State.lean ====
section
/-! SUPPORT. What each named update of the state does to each field, so that no later proof unfolds a record update. -/

namespace Sys2Proof.Machine

section GotoFields

variable (s : State) (p : Phase)

@[simp] theorem State.goto_st : (s.goto p).st = p := rfl
@[simp] theorem State.goto_bi : (s.goto p).bi = s.bi := rfl
@[simp] theorem State.goto_raw : (s.goto p).raw = s.raw := rfl
@[simp] theorem State.goto_fs : (s.goto p).fs = s.fs := rfl
@[simp] theorem State.goto_dirf : (s.goto p).dirf = s.dirf := rfl
@[simp] theorem State.goto_t0 : (s.goto p).t0 = s.t0 := rfl
@[simp] theorem State.goto_t1 : (s.goto p).t1 = s.t1 := rfl
@[simp] theorem State.goto_t2 : (s.goto p).t2 = s.t2 := rfl
@[simp] theorem State.goto_ehc : (s.goto p).ehc = s.ehc := rfl
@[simp] theorem State.goto_cfgd : (s.goto p).cfgd = s.cfgd := rfl
@[simp] theorem State.goto_rate : (s.goto p).rate = s.rate := rfl
@[simp] theorem State.goto_acc : (s.goto p).acc = s.acc := rfl
@[simp] theorem State.goto_bord : (s.goto p).bord = s.bord := rfl
@[simp] theorem State.goto_var : (s.goto p).var = s.var := rfl
@[simp] theorem State.goto_dir : (s.goto p).dir = s.dir := rfl
@[simp] theorem State.goto_thr : (s.goto p).thr = s.thr := rfl
@[simp] theorem State.goto_wlo : (s.goto p).wlo = s.wlo := rfl
@[simp] theorem State.goto_whi : (s.goto p).whi = s.whi := rfl
@[simp] theorem State.goto_fault : (s.goto p).fault = s.fault := rfl
@[simp] theorem State.goto_out : (s.goto p).out = s.out := rfl
@[simp] theorem State.goto_input : (s.goto p).input = s.input := rfl

end GotoFields

section EmitFields

variable (s : State) (a : Annotation)

@[simp] theorem State.emit_st : (s.emit a).st = s.st := rfl
@[simp] theorem State.emit_bi : (s.emit a).bi = s.bi := rfl
@[simp] theorem State.emit_raw : (s.emit a).raw = s.raw := rfl
@[simp] theorem State.emit_fs : (s.emit a).fs = s.fs := rfl
@[simp] theorem State.emit_dirf : (s.emit a).dirf = s.dirf := rfl
@[simp] theorem State.emit_t0 : (s.emit a).t0 = s.t0 := rfl
@[simp] theorem State.emit_t1 : (s.emit a).t1 = s.t1 := rfl
@[simp] theorem State.emit_t2 : (s.emit a).t2 = s.t2 := rfl
@[simp] theorem State.emit_ehc : (s.emit a).ehc = s.ehc := rfl
@[simp] theorem State.emit_cfgd : (s.emit a).cfgd = s.cfgd := rfl
@[simp] theorem State.emit_rate : (s.emit a).rate = s.rate := rfl
@[simp] theorem State.emit_acc : (s.emit a).acc = s.acc := rfl
@[simp] theorem State.emit_bord : (s.emit a).bord = s.bord := rfl
@[simp] theorem State.emit_var : (s.emit a).var = s.var := rfl
@[simp] theorem State.emit_dir : (s.emit a).dir = s.dir := rfl
@[simp] theorem State.emit_thr : (s.emit a).thr = s.thr := rfl
@[simp] theorem State.emit_wlo : (s.emit a).wlo = s.wlo := rfl
@[simp] theorem State.emit_whi : (s.emit a).whi = s.whi := rfl
@[simp] theorem State.emit_fault : (s.emit a).fault = s.fault := rfl
@[simp] theorem State.emit_out : (s.emit a).out = s.out ++ [a] := rfl
@[simp] theorem State.emit_input : (s.emit a).input = s.input := rfl

end EmitFields

section RecordFields

variable (s : State) (x : Sample)

@[simp] theorem State.record_st : (s.record x).st = s.st := rfl
@[simp] theorem State.record_bi : (s.record x).bi = s.bi := rfl
@[simp] theorem State.record_raw : (s.record x).raw = s.raw := rfl
@[simp] theorem State.record_fs : (s.record x).fs = s.fs := rfl
@[simp] theorem State.record_dirf : (s.record x).dirf = s.dirf := rfl
@[simp] theorem State.record_t0 : (s.record x).t0 = x := rfl
@[simp] theorem State.record_t1 : (s.record x).t1 = s.t0 := rfl
@[simp] theorem State.record_t2 : (s.record x).t2 = s.t1 := rfl
@[simp] theorem State.record_ehc : (s.record x).ehc = countUp s.ehc := rfl
@[simp] theorem State.record_cfgd : (s.record x).cfgd = s.cfgd := rfl
@[simp] theorem State.record_rate : (s.record x).rate = s.rate := rfl
@[simp] theorem State.record_acc : (s.record x).acc = s.acc := rfl
@[simp] theorem State.record_bord : (s.record x).bord = s.bord := rfl
@[simp] theorem State.record_var : (s.record x).var = s.var := rfl
@[simp] theorem State.record_dir : (s.record x).dir = s.dir := rfl
@[simp] theorem State.record_thr : (s.record x).thr = s.thr := rfl
@[simp] theorem State.record_wlo : (s.record x).wlo = s.wlo := rfl
@[simp] theorem State.record_whi : (s.record x).whi = s.whi := rfl
@[simp] theorem State.record_fault : (s.record x).fault = s.fault := rfl
@[simp] theorem State.record_out : (s.record x).out = s.out := rfl
@[simp] theorem State.record_input : (s.record x).input = s.input := rfl

end RecordFields

section ClearHistoryFields

variable (s : State)

@[simp] theorem State.clearHistory_st : s.clearHistory.st = s.st := rfl
@[simp] theorem State.clearHistory_bi : s.clearHistory.bi = s.bi := rfl
@[simp] theorem State.clearHistory_raw : s.clearHistory.raw = s.raw := rfl
@[simp] theorem State.clearHistory_fs : s.clearHistory.fs = s.fs := rfl
@[simp] theorem State.clearHistory_dirf : s.clearHistory.dirf = s.dirf := rfl
@[simp] theorem State.clearHistory_t0 : s.clearHistory.t0 = s.t0 := rfl
@[simp] theorem State.clearHistory_t1 : s.clearHistory.t1 = s.t1 := rfl
@[simp] theorem State.clearHistory_t2 : s.clearHistory.t2 = s.t2 := rfl
@[simp] theorem State.clearHistory_ehc : s.clearHistory.ehc = 0 := rfl
@[simp] theorem State.clearHistory_cfgd : s.clearHistory.cfgd = s.cfgd := rfl
@[simp] theorem State.clearHistory_rate : s.clearHistory.rate = s.rate := rfl
@[simp] theorem State.clearHistory_acc : s.clearHistory.acc = s.acc := rfl
@[simp] theorem State.clearHistory_bord : s.clearHistory.bord = s.bord := rfl
@[simp] theorem State.clearHistory_var : s.clearHistory.var = s.var := rfl
@[simp] theorem State.clearHistory_dir : s.clearHistory.dir = s.dir := rfl
@[simp] theorem State.clearHistory_thr : s.clearHistory.thr = s.thr := rfl
@[simp] theorem State.clearHistory_wlo : s.clearHistory.wlo = s.wlo := rfl
@[simp] theorem State.clearHistory_whi : s.clearHistory.whi = s.whi := rfl
@[simp] theorem State.clearHistory_fault : s.clearHistory.fault = s.fault := rfl
@[simp] theorem State.clearHistory_out : s.clearHistory.out = s.out := rfl
@[simp] theorem State.clearHistory_input : s.clearHistory.input = s.input := rfl

end ClearHistoryFields

section RaiseFlagFields

variable (s : State) (f : FaultFlag)

@[simp] theorem State.raiseFlag_st : (s.raiseFlag f).st = s.st := rfl
@[simp] theorem State.raiseFlag_bi : (s.raiseFlag f).bi = s.bi := rfl
@[simp] theorem State.raiseFlag_raw : (s.raiseFlag f).raw = s.raw := rfl
@[simp] theorem State.raiseFlag_fs : (s.raiseFlag f).fs = s.fs := rfl
@[simp] theorem State.raiseFlag_dirf : (s.raiseFlag f).dirf = s.dirf := rfl
@[simp] theorem State.raiseFlag_t0 : (s.raiseFlag f).t0 = s.t0 := rfl
@[simp] theorem State.raiseFlag_t1 : (s.raiseFlag f).t1 = s.t1 := rfl
@[simp] theorem State.raiseFlag_t2 : (s.raiseFlag f).t2 = s.t2 := rfl
@[simp] theorem State.raiseFlag_ehc : (s.raiseFlag f).ehc = s.ehc := rfl
@[simp] theorem State.raiseFlag_cfgd : (s.raiseFlag f).cfgd = s.cfgd := rfl
@[simp] theorem State.raiseFlag_rate : (s.raiseFlag f).rate = s.rate := rfl
@[simp] theorem State.raiseFlag_acc : (s.raiseFlag f).acc = s.acc := rfl
@[simp] theorem State.raiseFlag_bord : (s.raiseFlag f).bord = s.bord := rfl
@[simp] theorem State.raiseFlag_var : (s.raiseFlag f).var = s.var := rfl
@[simp] theorem State.raiseFlag_dir : (s.raiseFlag f).dir = s.dir := rfl
@[simp] theorem State.raiseFlag_thr : (s.raiseFlag f).thr = s.thr := rfl
@[simp] theorem State.raiseFlag_wlo : (s.raiseFlag f).wlo = s.wlo := rfl
@[simp] theorem State.raiseFlag_whi : (s.raiseFlag f).whi = s.whi := rfl
@[simp] theorem State.raiseFlag_fault : (s.raiseFlag f).fault = s.fault.raise f := rfl
@[simp] theorem State.raiseFlag_out : (s.raiseFlag f).out = s.out := rfl
@[simp] theorem State.raiseFlag_input : (s.raiseFlag f).input = s.input := rfl

end RaiseFlagFields

section BuildFields

variable (s : State) (hz : BitVec 32)

@[simp] theorem State.build_st : (s.build hz).st = s.st := rfl
@[simp] theorem State.build_bi : (s.build hz).bi = s.bi := rfl
@[simp] theorem State.build_raw : (s.build hz).raw = s.raw := rfl
@[simp] theorem State.build_fs : (s.build hz).fs = s.fs := rfl
@[simp] theorem State.build_dirf : (s.build hz).dirf = s.dirf := rfl
@[simp] theorem State.build_t0 : (s.build hz).t0 = s.t0 := rfl
@[simp] theorem State.build_t1 : (s.build hz).t1 = s.t1 := rfl
@[simp] theorem State.build_t2 : (s.build hz).t2 = s.t2 := rfl
@[simp] theorem State.build_ehc : (s.build hz).ehc = s.ehc := rfl
@[simp] theorem State.build_cfgd : (s.build hz).cfgd = s.cfgd := rfl
@[simp] theorem State.build_rate : (s.build hz).rate = s.rate := rfl
@[simp] theorem State.build_acc : (s.build hz).acc = s.acc := rfl
@[simp] theorem State.build_bord : (s.build hz).bord = s.bord := rfl
@[simp] theorem State.build_var : (s.build hz).var = s.var := rfl
@[simp] theorem State.build_dir : (s.build hz).dir = s.dir := rfl
@[simp] theorem State.build_thr : (s.build hz).thr = buildThr hz := rfl
@[simp] theorem State.build_wlo : (s.build hz).wlo = buildWlo hz := rfl
@[simp] theorem State.build_whi : (s.build hz).whi = buildWhi hz := rfl
@[simp] theorem State.build_fault : (s.build hz).fault = s.fault := rfl
@[simp] theorem State.build_out : (s.build hz).out = s.out := rfl
@[simp] theorem State.build_input : (s.build hz).input = s.input := rfl

end BuildFields

section AcceptRateFields

variable (s : State) (hz : BitVec 32)

@[simp] theorem State.acceptRate_st : (s.acceptRate hz).st = s.st := rfl
@[simp] theorem State.acceptRate_bi : (s.acceptRate hz).bi = s.bi := rfl
@[simp] theorem State.acceptRate_raw : (s.acceptRate hz).raw = s.raw := rfl
@[simp] theorem State.acceptRate_fs : (s.acceptRate hz).fs = s.fs := rfl
@[simp] theorem State.acceptRate_dirf : (s.acceptRate hz).dirf = s.dirf := rfl
@[simp] theorem State.acceptRate_t0 : (s.acceptRate hz).t0 = s.t0 := rfl
@[simp] theorem State.acceptRate_t1 : (s.acceptRate hz).t1 = s.t1 := rfl
@[simp] theorem State.acceptRate_t2 : (s.acceptRate hz).t2 = s.t2 := rfl
@[simp] theorem State.acceptRate_ehc : (s.acceptRate hz).ehc = s.ehc := rfl
@[simp] theorem State.acceptRate_cfgd : (s.acceptRate hz).cfgd = true := rfl
@[simp] theorem State.acceptRate_rate : (s.acceptRate hz).rate = hz := rfl
@[simp] theorem State.acceptRate_acc : (s.acceptRate hz).acc = s.acc := rfl
@[simp] theorem State.acceptRate_bord : (s.acceptRate hz).bord = s.bord := rfl
@[simp] theorem State.acceptRate_var : (s.acceptRate hz).var = s.var := rfl
@[simp] theorem State.acceptRate_dir : (s.acceptRate hz).dir = s.dir := rfl
@[simp] theorem State.acceptRate_thr : (s.acceptRate hz).thr = buildThr hz := rfl
@[simp] theorem State.acceptRate_wlo : (s.acceptRate hz).wlo = buildWlo hz := rfl
@[simp] theorem State.acceptRate_whi : (s.acceptRate hz).whi = buildWhi hz := rfl
@[simp] theorem State.acceptRate_fault : (s.acceptRate hz).fault = s.fault := rfl
@[simp] theorem State.acceptRate_out : (s.acceptRate hz).out = s.out := rfl
@[simp] theorem State.acceptRate_input : (s.acceptRate hz).input = s.input := rfl

end AcceptRateFields

section AcceptOptionsFields

variable (s : State) (a : BitVec 7) (b : BitOrder) (v : Variant) (d : Direction)

@[simp] theorem State.acceptOptions_st : (s.acceptOptions a b v d).st = s.st := rfl
@[simp] theorem State.acceptOptions_bi : (s.acceptOptions a b v d).bi = s.bi := rfl
@[simp] theorem State.acceptOptions_raw : (s.acceptOptions a b v d).raw = s.raw := rfl
@[simp] theorem State.acceptOptions_fs : (s.acceptOptions a b v d).fs = s.fs := rfl
@[simp] theorem State.acceptOptions_dirf : (s.acceptOptions a b v d).dirf = s.dirf := rfl
@[simp] theorem State.acceptOptions_t0 : (s.acceptOptions a b v d).t0 = s.t0 := rfl
@[simp] theorem State.acceptOptions_t1 : (s.acceptOptions a b v d).t1 = s.t1 := rfl
@[simp] theorem State.acceptOptions_t2 : (s.acceptOptions a b v d).t2 = s.t2 := rfl
@[simp] theorem State.acceptOptions_ehc : (s.acceptOptions a b v d).ehc = s.ehc := rfl
@[simp] theorem State.acceptOptions_cfgd : (s.acceptOptions a b v d).cfgd = s.cfgd := rfl
@[simp] theorem State.acceptOptions_rate : (s.acceptOptions a b v d).rate = s.rate := rfl
@[simp] theorem State.acceptOptions_acc : (s.acceptOptions a b v d).acc = a := rfl
@[simp] theorem State.acceptOptions_bord : (s.acceptOptions a b v d).bord = b := rfl
@[simp] theorem State.acceptOptions_var : (s.acceptOptions a b v d).var = v := rfl
@[simp] theorem State.acceptOptions_dir : (s.acceptOptions a b v d).dir = d := rfl
@[simp] theorem State.acceptOptions_thr : (s.acceptOptions a b v d).thr = s.thr := rfl
@[simp] theorem State.acceptOptions_wlo : (s.acceptOptions a b v d).wlo = s.wlo := rfl
@[simp] theorem State.acceptOptions_whi : (s.acceptOptions a b v d).whi = s.whi := rfl
@[simp] theorem State.acceptOptions_fault : (s.acceptOptions a b v d).fault = s.fault := rfl
@[simp] theorem State.acceptOptions_out : (s.acceptOptions a b v d).out = s.out := rfl
@[simp] theorem State.acceptOptions_input : (s.acceptOptions a b v d).input = s.input := rfl

end AcceptOptionsFields

section StartAttemptFields

variable (s : State) (ch : Channel) (x : Sample)

@[simp] theorem State.startAttempt_st : (s.startAttempt ch x).st = .ascA := rfl
@[simp] theorem State.startAttempt_bi : (s.startAttempt ch x).bi = s.bi := rfl
@[simp] theorem State.startAttempt_raw : (s.startAttempt ch x).raw = s.raw := rfl
@[simp] theorem State.startAttempt_fs : (s.startAttempt ch x).fs = s.fs := rfl
@[simp] theorem State.startAttempt_dirf : (s.startAttempt ch x).dirf = attemptDirection s.var ch := rfl
@[simp] theorem State.startAttempt_t0 : (s.startAttempt ch x).t0 = x := rfl
@[simp] theorem State.startAttempt_t1 : (s.startAttempt ch x).t1 = s.t0 := rfl
@[simp] theorem State.startAttempt_t2 : (s.startAttempt ch x).t2 = s.t1 := rfl
@[simp] theorem State.startAttempt_ehc : (s.startAttempt ch x).ehc = 1 := rfl
@[simp] theorem State.startAttempt_cfgd : (s.startAttempt ch x).cfgd = s.cfgd := rfl
@[simp] theorem State.startAttempt_rate : (s.startAttempt ch x).rate = s.rate := rfl
@[simp] theorem State.startAttempt_acc : (s.startAttempt ch x).acc = s.acc := rfl
@[simp] theorem State.startAttempt_bord : (s.startAttempt ch x).bord = s.bord := rfl
@[simp] theorem State.startAttempt_var : (s.startAttempt ch x).var = s.var := rfl
@[simp] theorem State.startAttempt_dir : (s.startAttempt ch x).dir = s.dir := rfl
@[simp] theorem State.startAttempt_thr : (s.startAttempt ch x).thr = s.thr := rfl
@[simp] theorem State.startAttempt_wlo : (s.startAttempt ch x).wlo = s.wlo := rfl
@[simp] theorem State.startAttempt_whi : (s.startAttempt ch x).whi = s.whi := rfl
@[simp] theorem State.startAttempt_fault : (s.startAttempt ch x).fault = s.fault := rfl
@[simp] theorem State.startAttempt_out : (s.startAttempt ch x).out = s.out := rfl
@[simp] theorem State.startAttempt_input : (s.startAttempt ch x).input = s.input := rfl

end StartAttemptFields

section ConfirmStartFields

variable (s : State)

@[simp] theorem State.confirmStart_st : s.confirmStart.st = .ifA := rfl
@[simp] theorem State.confirmStart_bi : s.confirmStart.bi = 0 := rfl
@[simp] theorem State.confirmStart_raw : s.confirmStart.raw = 0 := rfl
@[simp] theorem State.confirmStart_fs : s.confirmStart.fs = s.t2 := rfl
@[simp] theorem State.confirmStart_dirf : s.confirmStart.dirf = s.dirf := rfl
@[simp] theorem State.confirmStart_t0 : s.confirmStart.t0 = s.t0 := rfl
@[simp] theorem State.confirmStart_t1 : s.confirmStart.t1 = s.t1 := rfl
@[simp] theorem State.confirmStart_t2 : s.confirmStart.t2 = s.t2 := rfl
@[simp] theorem State.confirmStart_ehc : s.confirmStart.ehc = s.ehc := rfl
@[simp] theorem State.confirmStart_cfgd : s.confirmStart.cfgd = s.cfgd := rfl
@[simp] theorem State.confirmStart_rate : s.confirmStart.rate = s.rate := rfl
@[simp] theorem State.confirmStart_acc : s.confirmStart.acc = s.acc := rfl
@[simp] theorem State.confirmStart_bord : s.confirmStart.bord = s.bord := rfl
@[simp] theorem State.confirmStart_var : s.confirmStart.var = s.var := rfl
@[simp] theorem State.confirmStart_dir : s.confirmStart.dir = s.dir := rfl
@[simp] theorem State.confirmStart_thr : s.confirmStart.thr = s.thr := rfl
@[simp] theorem State.confirmStart_wlo : s.confirmStart.wlo = s.wlo := rfl
@[simp] theorem State.confirmStart_whi : s.confirmStart.whi = s.whi := rfl
@[simp] theorem State.confirmStart_fault : s.confirmStart.fault = s.fault := rfl
@[simp] theorem State.confirmStart_out : s.confirmStart.out = s.out ++ [⟨s.t2, s.t0, .start, 0⟩] := rfl
@[simp] theorem State.confirmStart_input : s.confirmStart.input = s.input := rfl

end ConfirmStartFields

section CompleteFrameFields

variable (s : State) (es ee : Sample)

@[simp] theorem State.completeFrame_st : (s.completeFrame es ee).st = .idle := rfl
@[simp] theorem State.completeFrame_bi : (s.completeFrame es ee).bi = s.bi := rfl
@[simp] theorem State.completeFrame_raw : (s.completeFrame es ee).raw = s.raw := rfl
@[simp] theorem State.completeFrame_fs : (s.completeFrame es ee).fs = s.fs := rfl
@[simp] theorem State.completeFrame_dirf : (s.completeFrame es ee).dirf = s.dirf := rfl
@[simp] theorem State.completeFrame_t0 : (s.completeFrame es ee).t0 = s.t0 := rfl
@[simp] theorem State.completeFrame_t1 : (s.completeFrame es ee).t1 = s.t1 := rfl
@[simp] theorem State.completeFrame_t2 : (s.completeFrame es ee).t2 = s.t2 := rfl
@[simp] theorem State.completeFrame_ehc : (s.completeFrame es ee).ehc = s.ehc := rfl
@[simp] theorem State.completeFrame_cfgd : (s.completeFrame es ee).cfgd = s.cfgd := rfl
@[simp] theorem State.completeFrame_rate : (s.completeFrame es ee).rate = s.rate := rfl
@[simp] theorem State.completeFrame_acc : (s.completeFrame es ee).acc = s.acc := rfl
@[simp] theorem State.completeFrame_bord : (s.completeFrame es ee).bord = s.bord := rfl
@[simp] theorem State.completeFrame_var : (s.completeFrame es ee).var = s.var := rfl
@[simp] theorem State.completeFrame_dir : (s.completeFrame es ee).dir = s.dir := rfl
@[simp] theorem State.completeFrame_thr : (s.completeFrame es ee).thr = s.thr := rfl
@[simp] theorem State.completeFrame_wlo : (s.completeFrame es ee).wlo = s.wlo := rfl
@[simp] theorem State.completeFrame_whi : (s.completeFrame es ee).whi = s.whi := rfl
@[simp] theorem State.completeFrame_fault : (s.completeFrame es ee).fault = s.fault := rfl
@[simp] theorem State.completeFrame_out : (s.completeFrame es ee).out = s.out ++ [⟨es, ee, .endPulse, 0⟩] ++ [s.frameRecord ee] := rfl
@[simp] theorem State.completeFrame_input : (s.completeFrame es ee).input = s.input := rfl

end CompleteFrameFields

section TakeConditionFields

variable (s : State) (c : Condition)

@[simp] theorem State.takeCondition_bi : (s.takeCondition c).bi = s.bi := by cases c <;> rfl
@[simp] theorem State.takeCondition_raw : (s.takeCondition c).raw = s.raw := by cases c <;> rfl
@[simp] theorem State.takeCondition_fs : (s.takeCondition c).fs = s.fs := by cases c <;> rfl
@[simp] theorem State.takeCondition_dirf : (s.takeCondition c).dirf = s.dirf := by cases c <;> rfl
@[simp] theorem State.takeCondition_t0 : (s.takeCondition c).t0 = s.t0 := by cases c <;> rfl
@[simp] theorem State.takeCondition_t1 : (s.takeCondition c).t1 = s.t1 := by cases c <;> rfl
@[simp] theorem State.takeCondition_t2 : (s.takeCondition c).t2 = s.t2 := by cases c <;> rfl
@[simp] theorem State.takeCondition_ehc : (s.takeCondition c).ehc = s.ehc := by cases c <;> rfl
@[simp] theorem State.takeCondition_cfgd : (s.takeCondition c).cfgd = s.cfgd := by cases c <;> rfl
@[simp] theorem State.takeCondition_rate : (s.takeCondition c).rate = s.rate := by cases c <;> rfl
@[simp] theorem State.takeCondition_acc : (s.takeCondition c).acc = s.acc := by cases c <;> rfl
@[simp] theorem State.takeCondition_bord : (s.takeCondition c).bord = s.bord := by cases c <;> rfl
@[simp] theorem State.takeCondition_var : (s.takeCondition c).var = s.var := by cases c <;> rfl
@[simp] theorem State.takeCondition_dir : (s.takeCondition c).dir = s.dir := by cases c <;> rfl
@[simp] theorem State.takeCondition_thr : (s.takeCondition c).thr = s.thr := by cases c <;> rfl
@[simp] theorem State.takeCondition_wlo : (s.takeCondition c).wlo = s.wlo := by cases c <;> rfl
@[simp] theorem State.takeCondition_whi : (s.takeCondition c).whi = s.whi := by cases c <;> rfl
@[simp] theorem State.takeCondition_input : (s.takeCondition c).input = s.input := by cases c <;> rfl

@[simp] theorem State.takeCondition_configurationError_st : (s.takeCondition .configurationError).st = .halted := rfl
@[simp] theorem State.takeCondition_configurationError_fault : (s.takeCondition .configurationError).fault = s.fault.raise .cfg := rfl
@[simp] theorem State.takeCondition_configurationError_out : (s.takeCondition .configurationError).out = s.out := rfl
@[simp] theorem State.takeCondition_symbolMismatch_st : (s.takeCondition .symbolMismatch).st = .idle := rfl
@[simp] theorem State.takeCondition_symbolMismatch_fault : (s.takeCondition .symbolMismatch).fault = s.fault := rfl
@[simp] theorem State.takeCondition_symbolMismatch_out : (s.takeCondition .symbolMismatch).out = s.out ++ [s.errorRecord] := rfl
@[simp] theorem State.takeCondition_spuriousStart_st : (s.takeCondition .spuriousStart).st = .idle := rfl
@[simp] theorem State.takeCondition_spuriousStart_fault : (s.takeCondition .spuriousStart).fault = s.fault := rfl
@[simp] theorem State.takeCondition_spuriousStart_out : (s.takeCondition .spuriousStart).out = s.out := rfl
@[simp] theorem State.takeCondition_truncatedCapture_st : (s.takeCondition .truncatedCapture).st = .halted := rfl
@[simp] theorem State.takeCondition_truncatedCapture_fault : (s.takeCondition .truncatedCapture).fault = s.fault := rfl
@[simp] theorem State.takeCondition_truncatedCapture_out : (s.takeCondition .truncatedCapture).out = s.out := rfl
@[simp] theorem State.takeCondition_seq_st : (s.takeCondition .seq).st = .idle := rfl
@[simp] theorem State.takeCondition_seq_fault : (s.takeCondition .seq).fault = s.fault.raise .seq := rfl
@[simp] theorem State.takeCondition_seq_out : (s.takeCondition .seq).out = s.out := rfl
@[simp] theorem State.takeCondition_ovl_st : (s.takeCondition .ovl).st = .idle := rfl
@[simp] theorem State.takeCondition_ovl_fault : (s.takeCondition .ovl).fault = s.fault.raise .ovl := rfl
@[simp] theorem State.takeCondition_ovl_out : (s.takeCondition .ovl).out = s.out ++ [s.errorRecord] := rfl
@[simp] theorem State.takeCondition_ill_st : (s.takeCondition .ill).st = s.st := rfl
@[simp] theorem State.takeCondition_ill_fault : (s.takeCondition .ill).fault = s.fault.raise .ill := rfl
@[simp] theorem State.takeCondition_ill_out : (s.takeCondition .ill).out = s.out := rfl

end TakeConditionFields

end Sys2Proof.Machine
end

