-- ==== Sys2Proof/Laws/Ops.lean ====
section
/-! SUPPORT. What each shared operation can do, said once: the intervals, the prelude, the rule of each state, and an edge event
as a whole. Later proofs cite these and do not unfold the operations. -/

namespace Sys2Proof.Machine

@[simp] theorem countUp_val (n : HistoryCount) : (countUp n).val = min (n.val + 1) 3 := rfl

@[simp] theorem State.goto_goto (s : State) (p q : Phase) : (s.goto p).goto q = s.goto q := rfl

theorem State.mostRecentInterval_eq_some {s : State} {d : Int} :
    s.mostRecentInterval = some d ↔ 2 ≤ s.ehc.val ∧ d = sampleDistance s.t0 s.t1 := by
  simp only [State.mostRecentInterval]
  split <;> simp_all [eq_comm]

theorem State.priorInterval_one_eq_some {s : State} {d : Int} :
    s.priorInterval 1 = some d ↔ s.ehc.val = 3 ∧ d = sampleDistance s.t1 s.t2 := by
  simp only [State.priorInterval]
  split <;> simp_all [eq_comm]

theorem State.mostRecentInterval_of_le {s : State} (h : 2 ≤ s.ehc.val) :
    s.mostRecentInterval = some (sampleDistance s.t0 s.t1) := by
  simp [State.mostRecentInterval, h]

theorem State.priorInterval_one_of_full {s : State} (h : s.ehc.val = 3) :
    s.priorInterval 1 = some (sampleDistance s.t1 s.t2) := by
  simp [State.priorInterval, h]

@[simp] theorem State.matchesSymbol_record (s : State) (x : Sample) (sym : Symbol) (d : Int) :
    (s.record x).matchesSymbol sym d = s.matchesSymbol sym d :=
  State.matchesSymbol_congr rfl rfl rfl rfl rfl sym d

@[simp] theorem State.classifyPair_record (s : State) (x : Sample) (p c : Int) :
    (s.record x).classifyPair p c = s.classifyPair p c := by
  simp [State.classifyPair]

/-- R104 with the interval it needs. -/
theorem State.startActiveEnds_of_le {s : State} (h : 2 ≤ s.ehc.val) :
    s.startActiveEnds = .next (if s.matchesSymbol .sa (sampleDistance s.t0 s.t1) then s.goto .ascP
      else s.takeCondition .spuriousStart) := by
  simp [State.startActiveEnds, State.mostRecentInterval_of_le h]

/-- R105 with the history it needs. -/
theorem State.startPassiveEnds_of_full {s : State} (h : s.ehc.val = 3) :
    s.startPassiveEnds = .next (if s.matchesSymbol .sp (sampleDistance s.t0 s.t1) then s.confirmStart
      else s.takeCondition .spuriousStart) := by
  simp [State.startPassiveEnds, State.mostRecentInterval_of_le (by omega : 2 ≤ s.ehc.val),
    State.priorInterval_one_of_full h]

/-- R107. -/
theorem State.activeEnds_twoWire {s : State} (h : s.var = .twoWire) : s.activeEnds = .next (s.goto .ifP) := by
  simp [State.activeEnds, h]

/-- R108 with the interval it needs. -/
theorem State.activeEnds_oneWire {s : State} (h : s.var = .oneWire) (he : 2 ≤ s.ehc.val) :
    s.activeEnds = .next (if !s.matchesSymbol .oa (sampleDistance s.t0 s.t1) &&
      s.matchesSymbol .ep (sampleDistance s.t0 s.t1) then s.completeFrame s.t1 s.t0 else s.goto .ifP) := by
  simp [State.activeEnds, h, State.mostRecentInterval_of_le he]

/-- R109 with the history it needs. -/
theorem State.passiveEnds_of_full {s : State} (h : s.ehc.val = 3) :
    s.passiveEnds =
      .next (s.applyPair (s.classifyPair (sampleDistance s.t1 s.t2) (sampleDistance s.t0 s.t1))) := by
  simp [State.passiveEnds, State.mostRecentInterval_of_le (by omega : 2 ≤ s.ehc.val),
    State.priorInterval_one_of_full h]

/-- R104, all it can do. -/
theorem State.startActiveEnds_next {s t : State} (h : s.startActiveEnds = .next t) :
    2 ≤ s.ehc.val ∧
      ((s.matchesSymbol .sa (sampleDistance s.t0 s.t1) = true ∧ t = s.goto .ascP) ∨
        (s.matchesSymbol .sa (sampleDistance s.t0 s.t1) = false ∧ t = s.takeCondition .spuriousStart)) := by
  simp only [State.startActiveEnds] at h
  split at h
  · rename_i d hd
    obtain ⟨he, rfl⟩ := State.mostRecentInterval_eq_some.mp hd
    split at h <;> simp_all
  · cases h

/-- R105, R106, all it can do. -/
theorem State.startPassiveEnds_next {s t : State} (h : s.startPassiveEnds = .next t) :
    s.ehc.val = 3 ∧
      ((s.matchesSymbol .sp (sampleDistance s.t0 s.t1) = true ∧ t = s.confirmStart) ∨
        (s.matchesSymbol .sp (sampleDistance s.t0 s.t1) = false ∧ t = s.takeCondition .spuriousStart)) := by
  simp only [State.startPassiveEnds] at h
  split at h
  · rename_i d p hd hp
    obtain ⟨he, rfl⟩ := State.mostRecentInterval_eq_some.mp hd
    obtain ⟨he', -⟩ := State.priorInterval_one_eq_some.mp hp
    split at h <;> simp_all
  · cases h

/-- R107, R108, all it can do. -/
theorem State.activeEnds_next {s t : State} (h : s.activeEnds = .next t) :
    (s.var = .twoWire ∧ t = s.goto .ifP) ∨
      (s.var = .oneWire ∧ 2 ≤ s.ehc.val ∧
        ((s.matchesSymbol .oa (sampleDistance s.t0 s.t1) = false ∧
            s.matchesSymbol .ep (sampleDistance s.t0 s.t1) = true ∧ t = s.completeFrame s.t1 s.t0) ∨
          ((s.matchesSymbol .oa (sampleDistance s.t0 s.t1) = true ∨
            s.matchesSymbol .ep (sampleDistance s.t0 s.t1) = false) ∧ t = s.goto .ifP))) := by
  simp only [State.activeEnds] at h
  split at h
  · rename_i hv
    simp_all
  · rename_i hv
    split at h
    · rename_i c hc
      obtain ⟨he, rfl⟩ := State.mostRecentInterval_eq_some.mp hc
      refine .inr ⟨hv, he, ?_⟩
      split at h
      · simp_all
      · rename_i hn
        refine .inr ⟨?_, by simpa using h.symm⟩
        cases hoa : s.matchesSymbol .oa (sampleDistance s.t0 s.t1) <;> simp_all
    · cases h

/-- R109, all it can do. -/
theorem State.passiveEnds_next {s t : State} (h : s.passiveEnds = .next t) :
    s.ehc.val = 3 ∧
      t = s.applyPair (s.classifyPair (sampleDistance s.t1 s.t2) (sampleDistance s.t0 s.t1)) := by
  simp only [State.passiveEnds] at h
  split at h
  · rename_i p c hp hc
    obtain ⟨he, rfl⟩ := State.priorInterval_one_eq_some.mp hp
    obtain ⟨-, rfl⟩ := State.mostRecentInterval_eq_some.mp hc
    exact ⟨he, by simpa using h.symm⟩
  · cases h

/-- R112, R113: a bit with room for it. -/
theorem State.acceptBit_of_lt {s : State} (h : s.bi.val < 40) (b : Bool) :
    s.acceptBit b =
      { (s.emit ⟨s.t2, s.t0, bitCategory s.var s.bi, indexPayload s.bi⟩) with
        raw := writeBit s.raw s.bi b, bi := ⟨s.bi.val + 1, Nat.succ_lt_succ h⟩, st := .ifA } := by
  simp [State.acceptBit, frameWidth, h]

/-- R114: a 41st bit. -/
theorem State.acceptBit_of_full {s : State} (h : ¬ s.bi.val < 40) (b : Bool) :
    s.acceptBit b = s.takeCondition .ovl := by
  simp [State.acceptBit, frameWidth, h]

/-- R112, R113, R114, all it can do. -/
theorem State.acceptBit_cases (s : State) (b : Bool) :
    (∃ h : s.bi.val < 40,
      s.acceptBit b =
        { (s.emit ⟨s.t2, s.t0, bitCategory s.var s.bi, indexPayload s.bi⟩) with
          raw := writeBit s.raw s.bi b, bi := ⟨s.bi.val + 1, Nat.succ_lt_succ h⟩, st := .ifA }) ∨
      (s.bi.val = 40 ∧ s.acceptBit b = s.takeCondition .ovl) := by
  by_cases h : s.bi.val < 40
  · exact .inl ⟨h, State.acceptBit_of_lt h b⟩
  · exact .inr ⟨by omega, State.acceptBit_of_full h b⟩

/-- R109, all the effect of a pair: a bit, an over-length bit, a completed frame or a FrameError. -/
theorem State.applyPair_cases (s : State) (c : PairClass) :
    (∃ (b : Bool) (h : s.bi.val < 40),
      s.applyPair c =
        { (s.emit ⟨s.t2, s.t0, bitCategory s.var s.bi, indexPayload s.bi⟩) with
          raw := writeBit s.raw s.bi b, bi := ⟨s.bi.val + 1, Nat.succ_lt_succ h⟩, st := .ifA }) ∨
      (s.bi.val = 40 ∧ (c = .oneBit ∨ c = .zeroBit) ∧ s.applyPair c = s.takeCondition .ovl) ∨
      (c = .endPulse ∧ s.applyPair c = s.completeFrame s.t2 s.t1) ∨
      (c = .mismatch ∧ s.applyPair c = s.takeCondition .symbolMismatch) := by
  cases c with
  | oneBit =>
    obtain ⟨h, e⟩ | ⟨h, e⟩ := s.acceptBit_cases true
    · exact .inl ⟨true, h, e⟩
    · exact .inr (.inl ⟨h, .inl rfl, e⟩)
  | zeroBit =>
    obtain ⟨h, e⟩ | ⟨h, e⟩ := s.acceptBit_cases false
    · exact .inl ⟨false, h, e⟩
    · exact .inr (.inl ⟨h, .inr rfl, e⟩)
  | endPulse => exact .inr (.inr (.inl ⟨rfl, rfl⟩))
  | mismatch => exact .inr (.inr (.inr ⟨rfl, rfl⟩))

/-- R102, all it can do. -/
theorem State.prelude_next {s t : State} {x : Sample} (h : s.prelude x = .next t) :
    1 ≤ s.ehc.val ∧
      ((x.toNat ≤ s.t0.toNat ∧ t = s.takeCondition .seq) ∨
        (s.t0.toNat < x.toNat ∧ (s.record x).stateRule = .next t)) := by
  simp only [State.prelude] at h
  split at h
  · cases h
  · split at h
    · simp_all; omega
    · exact ⟨by omega, .inr ⟨by omega, h⟩⟩

/-- Section 8 of 42_frame_state_machine.md, all an edge event can do. -/
theorem State.onEdge_next {s t : State} {ch : Channel} {pol : Polarity} {x : Sample}
    (h : s.onEdge ch pol x = .next t) :
    t = s ∨
      (s.cfgd = true ∧ s.qualifies ch pol = true ∧ s.st = .idle ∧ t = s.startAttempt ch x) ∨
      (s.cfgd = true ∧ s.qualifies ch pol = true ∧ s.st.code ≠ 0 ∧ s.st.code ≠ 5 ∧ s.prelude x = .next t) := by
  simp only [State.onEdge] at h
  split at h
  · simp_all
  · split at h
    · simp_all
    · split at h
      · simp_all
      · split at h
        · simp_all
        · right; right
          refine ⟨by simp_all, by simp_all, ?_, ?_, h⟩ <;> cases hs : s.st <;> simp_all [Phase.code]

/-- An edge event that does not qualify changes nothing (R100, R119, R120). -/
theorem State.onEdge_ignored {s : State} {ch : Channel} {pol : Polarity} {x : Sample}
    (h : s.st = .halted ∨ s.cfgd = false ∨ s.qualifies ch pol = false) : s.onEdge ch pol x = .next s := by
  simp only [State.onEdge]
  split
  · rfl
  · split
    · rfl
    · simp_all

/-- A qualifying edge in IDLE (R103). -/
theorem State.onEdge_idle {s : State} {ch : Channel} {pol : Polarity} {x : Sample} (hs : s.st = .idle)
    (hc : s.cfgd = true) (hq : s.qualifies ch pol = true) : s.onEdge ch pol x = .next (s.startAttempt ch x) := by
  simp [State.onEdge, hs, hc, hq]

/-- A qualifying edge outside IDLE (R102). -/
theorem State.onEdge_attempt {s : State} {ch : Channel} {pol : Polarity} {x : Sample} (hi : s.st ≠ .idle)
    (hh : s.st ≠ .halted) (hc : s.cfgd = true) (hq : s.qualifies ch pol = true) :
    s.onEdge ch pol x = s.prelude x := by
  simp [State.onEdge, hi, hh, hc, hq]

/-- R102 with an index that increases. -/
theorem State.prelude_later {s : State} {x : Sample} (he : 1 ≤ s.ehc.val) (hx : s.t0.toNat < x.toNat) :
    s.prelude x = (s.record x).stateRule := by
  have h0 : s.ehc.val ≠ 0 := by omega
  have hle : ¬ x.toNat ≤ s.t0.toNat := by omega
  simp [State.prelude, h0, hle]

/-- R102 with an index that does not increase. -/
theorem State.prelude_notLater {s : State} {x : Sample} (he : 1 ≤ s.ehc.val) (hx : x.toNat ≤ s.t0.toNat) :
    s.prelude x = .next (s.takeCondition .seq) := by
  have h0 : s.ehc.val ≠ 0 := by omega
  simp [State.prelude, h0, hx]

end Sys2Proof.Machine
end

