-- ==== Sys2Proof/Laws/Words.lean ====
section
/-! SUPPORT. The fields of a word laid out by `eventWord`, so that no later proof unfolds a concatenation; and the serialised
bytes of a word. -/

namespace Sys2Proof

section Fields

variable (op arg : BitVec 4) (data : BitVec 64)

theorem getLsbD_eventWord (i : Nat) :
    (eventWord op arg data).getLsbD i =
      if i < 64 then data.getLsbD i else if i < 68 then arg.getLsbD (i - 64) else op.getLsbD (i - 68) := by
  simp only [eventWord, BitVec.getLsbD_append]
  by_cases h64 : i < 64
  · simp [h64]
  · by_cases h68 : i < 68
    · have : i - 64 < 4 := by omega
      simp [h64, h68, this]
    · have : ¬ i - 64 < 4 := by omega
      simp [h64, h68, this, Nat.sub_sub]

@[simp] theorem opField_eventWord : EventWord.opField (eventWord op arg data) = op := by
  apply BitVec.eq_of_getLsbD_eq
  intro i hi
  simp only [EventWord.opField, BitVec.getLsbD_extractLsb', hi, decide_true, Bool.true_and, getLsbD_eventWord]
  rw [if_neg (by omega), if_neg (by omega)]
  congr 1
  omega

@[simp] theorem argField_eventWord : EventWord.argField (eventWord op arg data) = arg := by
  apply BitVec.eq_of_getLsbD_eq
  intro i hi
  simp only [EventWord.argField, BitVec.getLsbD_extractLsb', hi, decide_true, Bool.true_and, getLsbD_eventWord]
  rw [if_neg (by omega), if_pos (by omega)]
  congr 1
  omega

@[simp] theorem dataField_eventWord : EventWord.dataField (eventWord op arg data) = data := by
  apply BitVec.eq_of_getLsbD_eq
  intro i hi
  simp only [EventWord.dataField, BitVec.getLsbD_extractLsb', hi, decide_true, Bool.true_and, getLsbD_eventWord]
  rw [if_pos (by omega)]
  congr 1
  omega

@[simp] theorem channelField_eventWord :
    channelField (eventWord op arg data) = if arg.getLsbD 1 then .ch1 else .ch0 := by
  simp only [channelField, getLsbD_eventWord]
  norm_num

@[simp] theorem polarityField_eventWord :
    polarityField (eventWord op arg data) = if arg.getLsbD 0 then .rise else .fall := by
  simp only [polarityField, getLsbD_eventWord]
  norm_num

@[simp] theorem hzField_eventWord : hzField (eventWord op arg data) = data.extractLsb' 0 32 := by
  apply BitVec.eq_of_getLsbD_eq
  intro i hi
  simp only [hzField, BitVec.getLsbD_extractLsb', hi, decide_true, Bool.true_and, getLsbD_eventWord]
  rw [if_pos (by omega)]

@[simp] theorem accField_eventWord : accField (eventWord op arg data) = data.extractLsb' 0 7 := by
  apply BitVec.eq_of_getLsbD_eq
  intro i hi
  simp only [accField, BitVec.getLsbD_extractLsb', hi, decide_true, Bool.true_and, getLsbD_eventWord]
  rw [if_pos (by omega)]

@[simp] theorem bordField_eventWord :
    bordField (eventWord op arg data) = if data.getLsbD 8 then .lsbFirst else .msbFirst := by
  simp only [bordField, getLsbD_eventWord]
  norm_num

@[simp] theorem varField_eventWord :
    varField (eventWord op arg data) = if data.getLsbD 9 then .oneWire else .twoWire := by
  simp only [varField, getLsbD_eventWord]
  norm_num

@[simp] theorem dirField_eventWord :
    dirField (eventWord op arg data) = if data.getLsbD 10 then .rx else .tx := by
  simp only [dirField, getLsbD_eventWord]
  norm_num

end Fields

section OptionBits

variable (acc : BitVec 7) (bord : BitOrder) (var : Variant) (dir : Direction)

theorem getLsbD_optData (i : Nat) :
    (optData acc bord var dir).getLsbD i =
      if i < 7 then acc.getLsbD i
      else if i = 8 then bord.bit.getLsbD 0
      else if i = 9 then var.bit.getLsbD 0
      else if i = 10 then dir.bit.getLsbD 0
      else false := by
  simp only [optData, BitVec.getLsbD_append]
  by_cases h7 : i < 7
  · simp [h7]
  · by_cases h7' : i = 7
    · subst h7'; simp
    · by_cases h8 : i = 8
      · subst h8; simp
      · by_cases h9 : i = 9
        · subst h9; simp
        · by_cases h10 : i = 10
          · subst h10; simp
          · have a1 : ¬ i - 7 < 1 := by omega
            have a2 : ¬ i - 7 - 1 < 1 := by omega
            have a3 : ¬ i - 7 - 1 - 1 < 1 := by omega
            have a4 : ¬ i - 7 - 1 - 1 - 1 < 1 := by omega
            simp [h7, h8, h9, h10, a1, a2, a3, a4]

end OptionBits

/-- The edge event of a channel and polarity is one of the four rows of R60. -/
theorem edge_cases (ch : Channel) (pol : Polarity) (x : Sample) :
    Instr.edge ch pol x = .f0 x ∨ Instr.edge ch pol x = .r0 x ∨ Instr.edge ch pol x = .f1 x ∨
      Instr.edge ch pol x = .r1 x := by
  cases ch <;> cases pol <;> simp [Instr.edge]

@[simp] theorem length_lowBytes (n : Nat) (w : EventWord) : (lowBytes n w).length = n := by
  induction n generalizing w with
  | zero => rfl
  | succ n ih => simp [lowBytes, ih]

theorem littleEndian_lowBytes (n : Nat) (w : EventWord) : littleEndian (lowBytes n w) = w.toNat % 2 ^ (8 * n) := by
  induction n generalizing w with
  | zero => simp [lowBytes, littleEndian, Nat.mod_one]
  | succ n ih =>
    simp only [lowBytes, littleEndian, ih, BitVec.extractLsb'_toNat, BitVec.toNat_ushiftRight,
      Nat.shiftRight_eq_div_pow]
    have e : 2 ^ (8 * (n + 1)) = 256 * 2 ^ (8 * n) := by rw [Nat.mul_add, Nat.pow_add, Nat.mul_comm]
    rw [e, Nat.mod_mul]
    simp

end Sys2Proof
end

