-- ==== Sys2Proof/Laws/Exec.lean ====
section
/-! SUPPORT. What `exec` and `step` unfold to: the four edge events as one operation, and a word that a step takes from
`IN`. -/

namespace Sys2Proof.Machine

@[simp] theorem exec_edge (ch : Channel) (pol : Polarity) (x : Sample) (s : State) :
    exec (.edge ch pol x) s = s.onEdge ch pol x := by
  cases ch <;> cases pol <;> rfl

@[simp] theorem exec_r0 (x : Sample) (s : State) : exec (.r0 x) s = s.onEdge .ch0 .rise x := rfl

@[simp] theorem exec_f0 (x : Sample) (s : State) : exec (.f0 x) s = s.onEdge .ch0 .fall x := rfl

@[simp] theorem exec_r1 (x : Sample) (s : State) : exec (.r1 x) s = s.onEdge .ch1 .rise x := rfl

@[simp] theorem exec_f1 (x : Sample) (s : State) : exec (.f1 x) s = s.onEdge .ch1 .fall x := rfl

@[simp] theorem exec_rst (s : State) : exec .rst s = .next { State.reset with input := s.input } := rfl

/-- R77 outside IDLE. -/
theorem exec_rate_attempt {s : State} (hi : s.st ≠ .idle) (hh : s.st ≠ .halted) (hz : BitVec 32) :
    exec (.rate hz) s = .next (s.takeCondition .ill) := by
  simp only [exec, execRate]
  split <;> simp_all

/-- R77 in IDLE. -/
theorem exec_rate_idle {s : State} (hi : s.st = .idle) (hz : BitVec 32) :
    exec (.rate hz) s = .next (if hz = 0 then s.takeCondition .configurationError else s.acceptRate hz) := by
  simp [exec, execRate, hi]

/-- R78 outside IDLE. -/
theorem exec_opt_attempt {s : State} (hi : s.st ≠ .idle) (hh : s.st ≠ .halted) (a : BitVec 7) (b : BitOrder)
    (v : Variant) (d : Direction) : exec (.opt a b v d) s = .next (s.takeCondition .ill) := by
  simp only [exec, execOpt]
  split <;> simp_all

/-- R78 in IDLE. -/
theorem exec_opt_idle {s : State} (hi : s.st = .idle) (a : BitVec 7) (b : BitOrder) (v : Variant) (d : Direction) :
    exec (.opt a b v d) s = .next (s.acceptOptions a b v d) := by
  simp [exec, execOpt, hi]

/-- A statement about every event, from one about each kind of event. -/
theorem forall_instr {P : Instr → Prop} (nop : P .nop) (edge : ∀ ch pol x, P (.edge ch pol x))
    (rate : ∀ hz, P (.rate hz)) (opt : ∀ a b v d, P (.opt a b v d)) (eoc : P .eoc) (rst : P .rst) : ∀ i, P i
  | .nop => nop
  | .f0 x => edge .ch0 .fall x
  | .r0 x => edge .ch0 .rise x
  | .f1 x => edge .ch1 .fall x
  | .r1 x => edge .ch1 .rise x
  | .rate hz => rate hz
  | .opt a b v d => opt a b v d
  | .eoc => eoc
  | .rst => rst

/-- R77, all RATE can do. -/
theorem exec_rate_cases (hz : BitVec 32) (s : State) :
    (s.st = .halted ∧ exec (.rate hz) s = .next s) ∨
      (s.st = .idle ∧ hz = 0 ∧ exec (.rate hz) s = .next (s.takeCondition .configurationError)) ∨
      (s.st = .idle ∧ hz ≠ 0 ∧ exec (.rate hz) s = .next (s.acceptRate hz)) ∨
      (s.st ≠ .idle ∧ s.st ≠ .halted ∧ exec (.rate hz) s = .next (s.takeCondition .ill)) := by
  by_cases hh : s.st = .halted
  · exact .inl ⟨hh, by simp [exec, execRate, hh]⟩
  · by_cases hi : s.st = .idle
    · rw [exec_rate_idle hi]
      by_cases h0 : hz = 0
      · exact .inr (.inl ⟨hi, h0, by rw [if_pos h0]⟩)
      · exact .inr (.inr (.inl ⟨hi, h0, by rw [if_neg h0]⟩))
    · exact .inr (.inr (.inr ⟨hi, hh, exec_rate_attempt hi hh hz⟩))

/-- R78, all OPT can do. -/
theorem exec_opt_cases (a : BitVec 7) (b : BitOrder) (v : Variant) (d : Direction) (s : State) :
    (s.st = .halted ∧ exec (.opt a b v d) s = .next s) ∨
      (s.st = .idle ∧ exec (.opt a b v d) s = .next (s.acceptOptions a b v d)) ∨
      (s.st ≠ .idle ∧ s.st ≠ .halted ∧ exec (.opt a b v d) s = .next (s.takeCondition .ill)) := by
  by_cases hh : s.st = .halted
  · exact .inl ⟨hh, by simp [exec, execOpt, hh]⟩
  · by_cases hi : s.st = .idle
    · exact .inr (.inl ⟨hi, exec_opt_idle hi a b v d⟩)
    · exact .inr (.inr ⟨hi, hh, exec_opt_attempt hi hh a b v d⟩)

/-- Sections 2 to 6 of 42_frame_state_machine.md, all an edge event can do when it answers a next state. -/
theorem exec_edge_next {ch : Channel} {pol : Polarity} {x : Sample} {s t : State}
    (h : exec (.edge ch pol x) s = .next t) :
    t = s ∨
      (s.cfgd = true ∧ s.qualifies ch pol = true ∧ s.st = .idle ∧ t = s.startAttempt ch x) ∨
      (s.cfgd = true ∧ s.qualifies ch pol = true ∧ s.st ≠ .idle ∧ s.st ≠ .halted ∧ 1 ≤ s.ehc.val ∧
        x.toNat ≤ s.t0.toNat ∧ t = s.takeCondition .seq) ∨
      (s.cfgd = true ∧ s.qualifies ch pol = true ∧ 1 ≤ s.ehc.val ∧ s.t0.toNat < x.toNat ∧
        ((s.st = .ascA ∧ (t = (s.record x).goto .ascP ∨ t = (s.record x).takeCondition .spuriousStart)) ∨
          (s.st = .ascP ∧ 2 ≤ s.ehc.val ∧
            (t = (s.record x).confirmStart ∨ t = (s.record x).takeCondition .spuriousStart)) ∨
          (s.st = .ifA ∧
            (t = (s.record x).goto .ifP ∨ (s.var = .oneWire ∧ t = (s.record x).completeFrame s.t0 x))) ∨
          (s.st = .ifP ∧ 2 ≤ s.ehc.val ∧
            t = (s.record x).applyPair (s.classifyPair (sampleDistance s.t0 s.t1) (sampleDistance x s.t0))))) := by
  rw [exec_edge] at h
  obtain rfl | ⟨hc, hq, hi, rfl⟩ | ⟨hc, hq, h0, h5, hp⟩ := State.onEdge_next h
  · exact .inl rfl
  · exact .inr (.inl ⟨hc, hq, hi, rfl⟩)
  · have hi : s.st ≠ .idle := by intro e; simp [e, Phase.code] at h0
    have hh : s.st ≠ .halted := by intro e; simp [e, Phase.code] at h5
    obtain ⟨he, ⟨hx, rfl⟩ | ⟨hx, hr⟩⟩ := State.prelude_next hp
    · exact .inr (.inr (.inl ⟨hc, hq, hi, hh, he, hx, rfl⟩))
    · refine .inr (.inr (.inr ⟨hc, hq, he, hx, ?_⟩))
      have hcount : (s.record x).ehc.val = 3 → 2 ≤ s.ehc.val := by
        intro e
        simp at e
        omega
      simp only [State.stateRule, State.record_st] at hr
      cases hs : s.st with
      | idle => exact absurd hs hi
      | halted => exact absurd hs hh
      | ascA =>
        rw [hs] at hr
        obtain ⟨-, ⟨-, rfl⟩ | ⟨-, rfl⟩⟩ := State.startActiveEnds_next hr
        · exact .inl ⟨rfl, .inl rfl⟩
        · exact .inl ⟨rfl, .inr rfl⟩
      | ascP =>
        rw [hs] at hr
        obtain ⟨h3, ⟨-, rfl⟩ | ⟨-, rfl⟩⟩ := State.startPassiveEnds_next hr
        · exact .inr (.inl ⟨rfl, hcount h3, .inl rfl⟩)
        · exact .inr (.inl ⟨rfl, hcount h3, .inr rfl⟩)
      | ifA =>
        rw [hs] at hr
        obtain ⟨-, rfl⟩ | ⟨hv, -, ⟨-, -, rfl⟩ | ⟨-, rfl⟩⟩ := State.activeEnds_next hr
        · exact .inr (.inr (.inl ⟨rfl, .inl rfl⟩))
        · exact .inr (.inr (.inl ⟨rfl, .inr ⟨hv, rfl⟩⟩))
        · exact .inr (.inr (.inl ⟨rfl, .inl rfl⟩))
      | ifP =>
        rw [hs] at hr
        obtain ⟨h3, rfl⟩ := State.passiveEnds_next hr
        exact .inr (.inr (.inr ⟨rfl, hcount h3, by simp⟩))

/-- R66, R157, all a reserved word can do. -/
theorem reservedEvent_cases (s : State) :
    (s.st = .halted ∧ reservedEvent s = .next s) ∨
      (s.st ≠ .halted ∧ reservedEvent s = .next (s.takeCondition .ill)) := by
  by_cases hh : s.st = .halted
  · exact .inl ⟨hh, by simp [reservedEvent, hh]⟩
  · refine .inr ⟨hh, ?_⟩
    simp only [reservedEvent]
    split <;> simp_all

theorem step_cons {s : State} {w : EventWord} {rest : List EventWord} (h : s.input = w :: rest) :
    step s = runWord w { s with input := rest } := by
  simp [step, h]

theorem runWord_ok {w : EventWord} {i : Instr} (h : decode w = .ok i) (s : State) : runWord w s = exec i s := by
  simp [runWord, h]

theorem runWord_error {w : EventWord} {r : Reject} (h : decode w = .error r) (s : State) :
    runWord w s = reservedEvent s := by
  simp [runWord, h]

end Sys2Proof.Machine
end

