-- ==== Sys2Proof/Laws/PerInstr.lean ====
section
/-! SUPPORT. The family of laws stated for every event: its encoding is one of R60's nine rows, never a reserved word (R66). -/

namespace Sys2Proof.Laws

/-- R66: the word of the event is well formed. -/
def EncodesWellFormed.Statement (i : Instr) : Prop := EventWord.wellFormed (encode i) = true

/-- A word whose `op` field is 1 and whose `arg[3:2]` is 0 is well formed. -/
theorem wellFormed_edgeWord (arg : BitVec 4) (s : Sample) (h : arg.extractLsb' 2 2 = 0#2) :
    EventWord.wellFormed (eventWord 1#4 arg s) = true := by
  simp [EventWord.wellFormed, EventWord.reserved, EventWord.reservedOp, EventWord.reservedEdge,
    EventWord.reservedRate, EventWord.reservedOpt, EventWord.reservedEoc, h]

theorem EncodesWellFormed.nop : EncodesWellFormed.Statement .nop := by
  unfold EncodesWellFormed.Statement; decide

theorem EncodesWellFormed.f0 (s : Sample) : EncodesWellFormed.Statement (.f0 s) :=
  wellFormed_edgeWord _ s (by decide)

theorem EncodesWellFormed.r0 (s : Sample) : EncodesWellFormed.Statement (.r0 s) :=
  wellFormed_edgeWord _ s (by decide)

theorem EncodesWellFormed.f1 (s : Sample) : EncodesWellFormed.Statement (.f1 s) :=
  wellFormed_edgeWord _ s (by decide)

theorem EncodesWellFormed.r1 (s : Sample) : EncodesWellFormed.Statement (.r1 s) :=
  wellFormed_edgeWord _ s (by decide)

theorem EncodesWellFormed.rate (hz : BitVec 32) : EncodesWellFormed.Statement (.rate hz) := by
  have h : (0#32 ++ hz).extractLsb' 32 32 = 0#32 := by
    apply BitVec.eq_of_getLsbD_eq
    intro i hi
    rw [BitVec.getLsbD_extractLsb', BitVec.getLsbD_append, if_neg (by omega)]
    simp
  simp [EncodesWellFormed.Statement, encode, EventWord.wellFormed, EventWord.reserved, EventWord.reservedOp,
    EventWord.reservedEdge, EventWord.reservedRate, EventWord.reservedOpt, EventWord.reservedEoc, h]

theorem EncodesWellFormed.opt (acc : BitVec 7) (bord : BitOrder) (var : Variant) (dir : Direction) :
    EncodesWellFormed.Statement (.opt acc bord var dir) := by
  have h11 : (optData acc bord var dir).extractLsb' 11 53 = 0#53 := by
    apply BitVec.eq_of_getLsbD_eq
    intro i hi
    rw [BitVec.getLsbD_extractLsb', getLsbD_optData, if_neg (by omega), if_neg (by omega), if_neg (by omega),
      if_neg (by omega)]
    simp
  have h7 : (optData acc bord var dir).extractLsb' 7 1 = 0#1 := by
    apply BitVec.eq_of_getLsbD_eq
    intro i hi
    rw [BitVec.getLsbD_extractLsb', getLsbD_optData, if_neg (by omega), if_neg (by omega), if_neg (by omega),
      if_neg (by omega)]
    simp
  simp [EncodesWellFormed.Statement, encode, EventWord.wellFormed, EventWord.reserved, EventWord.reservedOp,
    EventWord.reservedEdge, EventWord.reservedRate, EventWord.reservedOpt, EventWord.reservedEoc, h11, h7]

theorem EncodesWellFormed.eoc : EncodesWellFormed.Statement .eoc := by
  unfold EncodesWellFormed.Statement; decide

theorem EncodesWellFormed.rst : EncodesWellFormed.Statement .rst := by
  unfold EncodesWellFormed.Statement; decide

end Sys2Proof.Laws
end

