-- ==== Sys2Proof/Laws/Related.lean ====
section
/-! SUPPORT. Comparing two runs: what an edge event does to two states that agree on everything the event tests. Said once, for any
relation that the seven updates an edge event can make keep. -/

namespace Sys2Proof.Machine

/-- Two answers of the same kind, their next states related by `R`. -/
inductive Related (R : State → State → Prop) : Result → Result → Prop where
  | next {a b : State} (h : R a b) : Related R (.next a) (.next b)
  | fault (r : Fault) : Related R (.fault r) (.fault r)
  | refused (r : Refusal) : Related R (.refused r) (.refused r)

/-- What an edge event tests agrees on `s` with index `x` and on `s'` with index `x'` (R79 to R81, R101, R102). -/
structure SameTests (s s' : State) (x x' : Sample) : Prop where
  st : s'.st = s.st
  cfgd : s'.cfgd = s.cfgd
  var : s'.var = s.var
  dirf : s'.dirf = s.dirf
  ehc : s'.ehc = s.ehc
  bi : s'.bi = s.bi
  matcher : s.cfgd = true → ∀ sym d, s'.matchesSymbol sym d = s.matchesSymbol sym d
  later : 1 ≤ s.ehc.val → (x'.toNat ≤ s'.t0.toNat ↔ x.toNat ≤ s.t0.toNat)
  current : 1 ≤ s.ehc.val → sampleDistance x' s'.t0 = sampleDistance x s.t0
  prior : 2 ≤ s.ehc.val → sampleDistance s'.t0 s'.t1 = sampleDistance s.t0 s.t1

/-- `R` is kept by each update an edge event can make of `s` with `x` and of `s'` with `x'`. -/
structure KeptByUpdates (R : State → State → Prop) (s s' : State) (x x' : Sample) : Prop where
  same : R s s'
  start : s.st = .idle → ∀ ch, R (s.startAttempt ch x) (s'.startAttempt ch x')
  seq : R (s.takeCondition .seq) (s'.takeCondition .seq)
  toAscP : s.st = .ascA → R ((s.record x).goto .ascP) ((s'.record x').goto .ascP)
  toIfP : s.st = .ifA → R ((s.record x).goto .ifP) ((s'.record x').goto .ifP)
  spurious : R ((s.record x).goto .idle) ((s'.record x').goto .idle)
  confirm : 2 ≤ s.ehc.val → R (s.record x).confirmStart (s'.record x').confirmStart
  completeNow : s.st = .ifA → 1 ≤ s.ehc.val → R ((s.record x).completeFrame s.t0 x) ((s'.record x').completeFrame s'.t0 x')
  pair : s.st = .ifP → 2 ≤ s.ehc.val → ∀ c, R ((s.record x).applyPair c) ((s'.record x').applyPair c)

/-- An edge event answers alike on two states on which its tests agree. -/
theorem onEdge_related {R : State → State → Prop} {s s' : State} {x x' : Sample} (ht : SameTests s s' x x')
    (hk : KeptByUpdates R s s' x x') (ch : Channel) (pol : Polarity) :
    Related R (s.onEdge ch pol x) (s'.onEdge ch pol x') := by
  have hq : s'.qualifies ch pol = s.qualifies ch pol := by
    simp only [State.qualifies, ht.st, ht.var, ht.dirf]
  by_cases hig : s.st = .halted ∨ s.cfgd = false ∨ s.qualifies ch pol = false
  · rw [State.onEdge_ignored hig, State.onEdge_ignored (by rwa [ht.st, ht.cfgd, hq])]
    exact .next hk.same
  · simp only [not_or, Bool.not_eq_false] at hig
    obtain ⟨hh, hc, hq1⟩ := hig
    by_cases hi : s.st = .idle
    · rw [State.onEdge_idle hi hc hq1, State.onEdge_idle (ht.st.trans hi) (ht.cfgd.trans hc) (hq.trans hq1)]
      exact .next (hk.start hi ch)
    · rw [State.onEdge_attempt hi hh hc hq1,
        State.onEdge_attempt (by rwa [ht.st]) (by rwa [ht.st]) (ht.cfgd.trans hc) (hq.trans hq1)]
      by_cases he : 1 ≤ s.ehc.val
      · have he' : 1 ≤ s'.ehc.val := by rw [ht.ehc]; exact he
        by_cases hx : x.toNat ≤ s.t0.toNat
        · rw [State.prelude_notLater he hx, State.prelude_notLater he' ((ht.later he).mpr hx)]
          exact .next hk.seq
        · have hx' : ¬ x'.toNat ≤ s'.t0.toNat := fun h => hx ((ht.later he).mp h)
          rw [State.prelude_later he (by omega), State.prelude_later he' (by omega)]
          have r2 : 2 ≤ (s.record x).ehc.val := by simp; omega
          have r2' : 2 ≤ (s'.record x').ehc.val := by simp; omega
          have hcur := ht.current he
          have hm := ht.matcher hc
          simp only [State.stateRule, State.record_st, ht.st]
          cases hs : s.st with
          | idle => exact absurd hs hi
          | halted => exact absurd hs hh
          | ascA =>
            simp only [State.startActiveEnds_of_le r2, State.startActiveEnds_of_le r2', State.matchesSymbol_record,
              State.record_t0, State.record_t1, hcur, hm]
            refine .next ?_
            split
            · exact hk.toAscP hs
            · exact hk.spurious
          | ascP =>
            by_cases h2 : 2 ≤ s.ehc.val
            · have f : (s.record x).ehc.val = 3 := by simp; omega
              have f' : (s'.record x').ehc.val = 3 := by simp [ht.ehc]; omega
              simp only [State.startPassiveEnds_of_full f, State.startPassiveEnds_of_full f',
                State.matchesSymbol_record, State.record_t0, State.record_t1, hcur, hm]
              refine .next ?_
              split
              · exact hk.confirm h2
              · exact hk.spurious
            · have f : ¬ (s.record x).ehc.val = 3 := by simp; omega
              have f' : ¬ (s'.record x').ehc.val = 3 := by simp [ht.ehc]; omega
              simp only [State.startPassiveEnds, State.priorInterval, f, f', if_false,
                State.mostRecentInterval_of_le r2, State.mostRecentInterval_of_le r2']
              exact .fault _
          | ifA =>
            cases hv : s.var with
            | twoWire =>
              rw [State.activeEnds_twoWire (by simpa using hv),
                State.activeEnds_twoWire (by simpa using ht.var.trans hv)]
              exact .next (hk.toIfP hs)
            | oneWire =>
              rw [State.activeEnds_oneWire (by simpa using hv) r2,
                State.activeEnds_oneWire (by simpa using ht.var.trans hv) r2']
              simp only [State.matchesSymbol_record, State.record_t0, State.record_t1, hcur, hm]
              refine .next ?_
              split
              · exact hk.completeNow hs he
              · exact hk.toIfP hs
          | ifP =>
            by_cases h2 : 2 ≤ s.ehc.val
            · have f : (s.record x).ehc.val = 3 := by simp; omega
              have f' : (s'.record x').ehc.val = 3 := by simp [ht.ehc]; omega
              have hcl : ∀ p c, s'.classifyPair p c = s.classifyPair p c := by
                intro p c
                simp only [State.classifyPair, hm, ht.var]
              simp only [State.passiveEnds_of_full f, State.passiveEnds_of_full f', State.classifyPair_record, hcl,
                State.record_t0, State.record_t1, State.record_t2, hcur, ht.prior h2]
              exact .next (hk.pair hs h2 _)
            · have f : ¬ (s.record x).ehc.val = 3 := by simp; omega
              have f' : ¬ (s'.record x').ehc.val = 3 := by simp [ht.ehc]; omega
              simp only [State.passiveEnds, State.priorInterval, f, f', if_false]
              exact .fault _
      · have h0 : s.ehc.val = 0 := by omega
        have h0' : s'.ehc.val = 0 := by rw [ht.ehc]; exact h0
        simp only [State.prelude, h0, h0', if_true]
        exact .fault _

end Sys2Proof.Machine
end

