-- ==== Sys2Proof/Machine/Label.lean ====
section
/-! DEFINITION. Rendering a record's label as text (R65), for a sink that wants it. It is not part of the hardware and no step
calls it; claims are stated over the payload (U18). -/

namespace Sys2Proof.Machine

/-- A hexadecimal digit in lower case. -/
def hexDigit (n : Nat) : Char := "0123456789abcdef".toList.getD n '0'

/-- The hexadecimal digits of a number below `16 ^ fuel`, without leading zeros; none for 0. -/
def hexDigits : Nat → Nat → List Char
  | 0, _ => []
  | fuel + 1, n => if n = 0 then [] else hexDigits fuel (n / 16) ++ [hexDigit (n % 16)]

/-- R65: a value in hexadecimal, `0x0` for zero. -/
def hexText (v : RawWord) : String :=
  "0x" ++ (if v = 0 then "0" else String.ofList (hexDigits 10 v.toNat))

/-- R65: the label of a record; the index of a BIT or PARITY record is `payload[5:0]`, the label code of a frame value
`payload[41:40]`, its display value `payload[39:0]` (R64). -/
def Annotation.label (a : Annotation) : String :=
  match a.category with
  | .start => "Start pulse"
  | .endPulse => "End pulse"
  | .error => "Error"
  | .bit => toString (a.payload.extractLsb' 0 6).toNat
  | .parity => toString (a.payload.extractLsb' 0 6).toNat
  | .frameTx => frameText a.payload
  | .frameRx => frameText a.payload
where
  /-- R65: the prefix, one space if it is not empty, then the value. -/
  frameText (p : BitVec 48) : String :=
    (if p.extractLsb' 40 2 = 1 then "even " else if p.extractLsb' 40 2 = 2 then "odd " else "")
      ++ hexText (p.extractLsb' 0 40)

end Sys2Proof.Machine
end

