-- ==== Sys2Proof/Tests/Slice0.lean ====
section
/-! SUPPORT. The model's own tests, their expected results taken from 95_test_vectors.md (the section is named at each group), and
for every statement with hypotheses a concrete state and operands that meet them. -/

namespace Sys2Proof.Tests

open Sys2Proof.Machine

/-! ## Helpers -/

/-- The next state of an answer, if it has one. -/
def nextOf : Host.Outcome State Fault Refusal → Option State
  | .next s => some s
  | .fault _ => none
  | .refused _ => none

/-- 95_test_vectors.md section 2.1: the two-wire table at 1 MHz. -/
def thrMega : SymbolTable := ⟨12000, 1270, 3000, 1000, 1000, 1000, 19000⟩

/-- 95_test_vectors.md section 4: the illustrative one-wire profile at 1 MHz, lower bounds. -/
def wloMega : SymbolTable := ⟨11500, 1000, 2500, 500, 500, 500, 18000⟩

/-- 95_test_vectors.md section 4: the illustrative one-wire profile at 1 MHz, upper bounds. -/
def whiMega : SymbolTable := ⟨12500, 1500, 3500, 1500, 1500, 1500, 20000⟩

/-- A configured two-wire state in phase `p` with direction `d`, `n` history entries and the history `a`, `b`, `c`. -/
def two (p : Phase) (d : Direction) (n : HistoryCount) (a b c : Sample) : State :=
  { State.reset with
    st := p, dirf := d, ehc := n, t0 := a, t1 := b, t2 := c, cfgd := true, rate := 1000000, thr := thrMega }

/-- The same in the one-wire variant, with the illustrative profile. -/
def one (p : Phase) (n : HistoryCount) (a b c : Sample) : State :=
  { State.reset with
    st := p, ehc := n, t0 := a, t1 := b, t2 := c, cfgd := true, rate := 1000000, var := .oneWire,
    wlo := wloMega, whi := whiMega }

/-- In `IF_P` with a pair under way whose active segment is `P` long, at bit index `n`. -/
def pair (d : Direction) (P : Sample) (n : BitIndex) : State :=
  { two .ifP d 3 (13270 + P) 13270 12000 with bi := n }

/-- A state with the two words `R0 @0` and `F0 @12000` waiting. -/
def waiting : State :=
  { two .idle .tx 0 0 0 0 with input := [0x110000000000000000#72, 0x100000000000002ee0#72] }

/-! ## Well-formedness: one reserved word for each clause of R66, and its neighbour (95_test_vectors.md section 3.7) -/

theorem test_reserved_op_low : EventWord.reservedOp 0x500000000000000000#72 = true ∧
    EventWord.wellFormed 0x500000000000000000#72 = false := by decide

theorem test_reserved_op_high : EventWord.reservedOp 0xe00000000000000000#72 = true ∧
    EventWord.wellFormed 0xe00000000000000000#72 = false := by decide

theorem test_reserved_edge : EventWord.reservedEdge 0x140000000000000000#72 = true ∧
    EventWord.wellFormed 0x180000000000000005#72 = false := by decide

theorem test_reserved_rate : EventWord.reservedRate 0x210000000000000001#72 = true ∧
    EventWord.wellFormed 0x200000000100000000#72 = false := by decide

theorem test_reserved_opt : EventWord.reservedOpt 0x300000000000000085#72 = true ∧
    EventWord.wellFormed 0x300000000000000805#72 = false ∧ EventWord.wellFormed 0x310000000000000005#72 = false := by
  decide

theorem test_reserved_eoc : EventWord.reservedEoc 0x410000000000000000#72 = true ∧
    EventWord.wellFormed 0x410000000000000000#72 = false := by decide

theorem test_well_formed : EventWord.wellFormed 0x0a00000000deadbeef#72 = true ∧
    EventWord.wellFormed 0x40000000000001e240#72 = true ∧ EventWord.wellFormed 0xf7123456789abcdef0#72 = true := by
  decide

/-! ## Decoding: a word of every event, written out in 95_test_vectors.md sections 1.6 and 3.7 -/

theorem test_decode_nop : decode 0x000000000000000000#72 = .ok .nop ∧ decode 0x0a00000000deadbeef#72 = .ok .nop := by
  decide

theorem test_decode_f0 : decode 0x100000000000002ee0#72 = .ok (.f0 12000) := by decide

theorem test_decode_r0 : decode 0x1100000000000003e8#72 = .ok (.r0 1000) := by decide

theorem test_decode_f1 : decode 0x1200000000000001f4#72 = .ok (.f1 500) := by decide

theorem test_decode_r1 : decode 0x1300000000000030d4#72 = .ok (.r1 12500) := by decide

theorem test_decode_rate : decode 0x2000000000000f4240#72 = .ok (.rate 1000000) := by decide

theorem test_decode_opt : decode 0x300000000000000705#72 = .ok (.opt 5 .lsbFirst .oneWire .rx) := by decide

theorem test_decode_opt_one_bit_each : decode 0x300000000000000105#72 = .ok (.opt 5 .lsbFirst .twoWire .tx) ∧
    decode 0x300000000000000205#72 = .ok (.opt 5 .msbFirst .oneWire .tx) ∧
    decode 0x30000000000000007f#72 = .ok (.opt 127 .msbFirst .twoWire .tx) := by decide

theorem test_decode_eoc : decode 0x400000000000000000#72 = .ok .eoc ∧ decode 0x40000000000001e240#72 = .ok .eoc := by
  decide

theorem test_decode_rst : decode 0xf00000000000000000#72 = .ok .rst ∧ decode 0xf7123456789abcdef0#72 = .ok .rst := by
  decide

theorem test_decode_reject_names : decode 0x140000000000000000#72 = .error .edgeArg ∧
    decode 0x200000000100000000#72 = .error .rateData ∧ decode 0x210000000000000001#72 = .error .rateArg ∧
    decode 0x300000000000000085#72 = .error .optData ∧ decode 0x310000000000000005#72 = .error .optArg ∧
    decode 0x410000000000000000#72 = .error .eocArg ∧ decode 0x500000000000000000#72 = .error .reservedOp := by
  decide

/-- R45 (D31): least significant byte first. -/
theorem test_serialise_r0_1000 : serialise 0x1100000000000003e8#72 = [0xe8, 0x03, 0, 0, 0, 0, 0, 0, 0x11] := by decide

theorem test_decode_bytes_short : decodeBytes [0xe8, 0x03, 0, 0, 0, 0, 0, 0] = .error .incomplete := by decide

theorem test_table_word : decodeTableWord 72 0x1100000000000003e8 = some (.r0 1000) ∧
    decodeTableWord 72 0x140000000000000000 = none := by decide

/-! ## One step of each instruction (95_test_vectors.md section 3.2 unless said) -/

theorem test_nop : nextOf (exec .nop (two .ifA .tx 3 13270 12000 0)) = some (two .ifA .tx 3 13270 12000 0) := by decide

theorem test_r0_starts : (nextOf (exec (.r0 1000) (two .idle .tx 0 0 0 0))).map
    (fun t => (t.st, t.ehc, t.t0, t.dirf, t.out)) = some (.ascA, 1, 1000, .tx, []) := by decide

theorem test_r0_one_bit : (nextOf (exec (.r0 17270) (pair .tx 3000 5))).map
    (fun t => (t.st, t.bi, t.raw, t.out)) = some (.ifA, 6, 0x20, [⟨13270, 17270, .bit, 5⟩]) := by decide

theorem test_f0_at_bound : (nextOf (exec (.f0 11400) (two .ascA .tx 1 0 0 0))).map
    (fun t => (t.st, t.ehc, t.t0, t.out)) = some (.idle, 2, 11400, []) := by decide

/-- Section 5.4 (P4): the one-wire end pulse is found at the fall. -/
theorem test_f0_one_wire_end : (nextOf (exec (.f0 44170)
    { one .ifA 3 25270 24270 21270 with raw := 7, bi := 3 })).map (fun t => (t.st, t.out)) =
      some (.idle, [⟨25270, 44170, .endPulse, 0⟩, ⟨0, 44170, .frameTx, 0⟩]) := by decide

/-- Section 3.10 (V10). -/
theorem test_f1_end_pulse : (nextOf (exec (.f1 36300)
    { two .ifP .rx 3 36270 17270 16270 with raw := 1, bi := 1 })).map (fun t => (t.st, t.t2, t.out)) =
      some (.idle, 17270, [⟨17270, 36270, .endPulse, 0⟩, ⟨0, 36270, .frameRx, 0⟩]) := by decide

theorem test_f1_one_wire_ignored : nextOf (exec (.f1 500) (one .idle 0 0 0 0)) = some (one .idle 0 0 0 0) := by decide

theorem test_r1_active_ends : (nextOf (exec (.r1 16270) (two .ifA .rx 3 13270 12000 0))).map
    (fun t => (t.st, t.t0, t.t1, t.t2)) = some (.ifP, 16270, 13270, 12000) := by decide

theorem test_r1_idle_ignored : nextOf (exec (.r1 7) (two .idle .tx 0 0 0 0)) = some (two .idle .tx 0 0 0 0) := by decide

/-- Section 3.6. -/
theorem test_rate_in_attempt : (nextOf (exec (.rate 2000000) (two .ascA .tx 1 0 0 0))).map
    (fun t => (t.st, t.fault.bits, t.rate, t.thr)) = some (.ascA, 8, 1000000, thrMega) := by decide

/-- Section 2.1: the two-wire table of the largest rate. -/
theorem test_rate_largest : (nextOf (exec (.rate 4294967295) State.reset)).map (fun t => (t.cfgd, t.thr)) =
    some (true, ⟨51539607, 5454608, 12884901, 4294967, 4294967, 4294967, 81604378⟩) := by decide

/-- Section 3.6. -/
theorem test_opt_idle : (nextOf (exec (.opt 5 .lsbFirst .oneWire .rx) State.reset)).map
    (fun t => (t.acc, t.bord, t.var, t.dir, t.cfgd)) = some (5, .lsbFirst, .oneWire, .rx, false) := by decide

theorem test_opt_in_attempt : (nextOf (exec (.opt 9 .lsbFirst .oneWire .rx) (two .ascA .tx 1 0 0 0))).map
    (fun t => (t.acc, t.bord, t.var, t.dir, t.fault.bits)) = some (5, .msbFirst, .twoWire, .tx, 8) := by decide

theorem test_eoc_mid_frame : (nextOf (exec .eoc (two .ifA .tx 3 13270 12000 0))).map (fun t => (t.st, t.ehc, t.out)) =
    some (.halted, 3, []) := by decide

theorem test_rst_halted : nextOf (exec .rst { two .halted .rx 3 13270 12000 0 with out := [⟨0, 1, .start, 0⟩] }) =
    some State.reset := by decide

/-- Section 3.9. -/
theorem test_reserved_word : (nextOf (runWord 0x500000000000000000#72 State.reset)).map
    (fun t => (t.st, t.fault.bits, t.out)) = some (.idle, 8, []) := by decide

/-! ## The assembler and the display text (95_test_vectors.md sections 3.4, 3.5, 1.9) -/

theorem test_rev40 : rev40 0x123456789a 40 = 0x591e6a2c48#40 ∧ rev40 0x1234567 25 = 0xc48000#40 ∧
    rev40 0xff000000a5 8 = 0xff#40 ∧ rev40 0xa5 8 = 0#40 := by decide

theorem test_frame_payload : ({ two .ifP .tx 3 0 0 0 with raw := 0x8004000409, bi := 40 }.frameRecord 9).payload =
    0x19020002001#48 := by decide

/-- Section 1.9 and the example of R137. -/
theorem test_label : (Annotation.mk 0 56270 .frameTx 0x10000000000).label = "even 0x0" ∧
    (Annotation.mk 0 9 .frameTx 0x10020000000).label = "even 0x20000000" ∧
    (Annotation.mk 0 9 .frameRx 0x7).label = "0x7" ∧ (Annotation.mk 0 9 .endPulse 0).label = "End pulse" := by decide

/-- Section 3.8: `wspec` of a transmit attempt, of a receive attempt, and in IDLE. -/
theorem test_wspec : (two .ascA .tx 1 0 0 0).wspec = 0b0010#4 ∧ (two .ifP .rx 3 0 0 0).wspec = 0b1000#4 ∧
    (two .idle .tx 0 0 0 0).wspec = 0b1001#4 ∧ (one .idle 0 0 0 0).wspec = 0b0001#4 := by decide

/-! ## Witnesses: for each statement with hypotheses, a state and operands that meet them -/

theorem test_witness_ReservedWordsRaiseIll : EventWord.reserved 0x500000000000000000#72 = true ∧
    EventWord.reserved 0xe00000000000000000#72 = true ∧ (two .ifA .tx 3 2 1 0).st ≠ .halted ∧
    (two .halted .tx 3 2 1 0).st = .halted ∧ EventWord.opField 0x0f00000000000000ff#72 = 0#4 ∧
    EventWord.opField 0xff0000000000000000#72 = 15#4 ∧ EventWord.opField 0x400000000000000001#72 = 4#4 ∧
    EventWord.argField 0x400000000000000001#72 = 0#4 := by decide

theorem test_witness_OpcodeRows : (∃ r ∈ opcodeRows, r.selects 0x30000000000000077f#72 = true) ∧
    ∀ r ∈ opcodeRows, r.selects 0x300000000000000080#72 = false := by decide

theorem test_witness_StepRunsTheDecodedEvent : waiting.input = 0x110000000000000000#72 :: [0x100000000000002ee0#72] ∧
    decode 0x110000000000000000#72 = .ok (.r0 0) := by decide

theorem test_witness_StepWaitsForAWord : (two .ascA .tx 1 5 0 0).input = [] := by decide

theorem test_witness_RunIsTheFoldOfTheTrace : waiting.input = [Instr.r0 0, Instr.f0 12000].map encode := by decide

theorem test_witness_Halted : (two .halted .tx 3 2 1 0).st = .halted ∧ Instr.rate 5 ≠ .rst ∧
    decode 0x2000000000000f4240#72 ≠ .ok .rst ∧ decode 0x500000000000000000#72 ≠ .ok .rst ∧
    Instr.rst ∉ [Instr.r0 1, .f0 2, .eoc, .rate 0] := by decide

theorem test_witness_RateEventByState : State.reset.st = .idle ∧ (1 : BitVec 32) ≠ 0 ∧
    (two .ascA .tx 1 0 0 0).st.inAttempt ∧ (two .ifP .tx 3 2 1 0).st.inAttempt ∧
    (two .halted .tx 0 0 0 0).st = .halted := by decide

theorem test_witness_ThresholdsScale : (1 : BitVec 32) ≠ 0 ∧ (2 : BitVec 32).toNat = 2 * (1 : BitVec 32).toNat ∧
    (0xfffffffe : BitVec 32).toNat = 2 * (0x7fffffff : BitVec 32).toNat := by decide

theorem test_witness_ConfigurationIsFrozen : (two .ascA .tx 1 0 0 0).st.inAttempt ∧ Instr.rate 7 ≠ .rst ∧
    ∃ t, exec (.rate 7) (two .ascA .tx 1 0 0 0) = .next t :=
  ⟨by decide, by decide, _, rfl⟩

theorem test_witness_Cfgd : (∃ t, exec (.rate 7) State.reset = .next t) ∧ (∃ t, exec .rst waiting = .next t) ∧
    State.reset.cfgd = false :=
  ⟨⟨_, rfl⟩, ⟨_, rfl⟩, rfl⟩

theorem test_witness_MatcherVariants : (two .idle .tx 0 0 0 0).var = .twoWire ∧ (one .idle 0 0 0 0).var = .oneWire := by
  decide

/-- R82 (d) and (e) at the table's bounds of 12000 and 5, (f) at 0 and at `t`, (g) at 101, and the empty window. -/
theorem test_witness_NearDegenerateCases : 100 * 12600 = 12000 * (100 + 5) ∧ 100 * 11400 = 12000 * (100 - 5) ∧
    100 * 0 = 1 * (100 - 100) ∧ 599 ≤ 12000 ∧ 12000 ≤ 12000 ∧ 100 < 101 ∧ 6 ≤ 5 + 1 ∧ 3 ≤ 7 + 1 := by decide

/-- R85 at its least and greatest accuracy. -/
theorem test_witness_NearHoldsOnAnInterval : 1 ≤ 1 ∧ 1 ≤ 1 ∧ 1 ≤ 100 ∧ 100 ≤ 100 ∧ near 1 1 1 = true ∧
    near 1 1 100 = true ∧ near 2 1 100 = false ∧ near 0 1 100 = false := by decide

theorem test_witness_WindowsDisjoint : 50 ≤ 127 ∧ 51 ≤ 127 ∧ 72 ≤ 127 ∧ 73 ≤ 127 ∧ near 1500 1000 51 = true ∧
    near 1500 3000 51 = true ∧ near 5187 3000 73 = true ∧ near 5187 19000 73 = true := by decide

theorem test_witness_PairClasses : (two .ifP .tx 3 0 0 0).var = .twoWire ∧
    (two .ifP .tx 3 0 0 0).thr = buildThr 1000000 ∧ (two .ifP .tx 3 0 0 0).acc = 5 ∧
    (two .ifP .tx 3 0 0 0).classifyPair 2851 951 = .oneBit ∧ (two .ifP .tx 3 0 0 0).classifyPair 951 1049 = .zeroBit ∧
    (two .ifP .tx 3 0 0 0).classifyPair 19949 1 = .endPulse ∧
    (two .ifP .tx 3 0 0 0).classifyPair 3150 1000 = .mismatch := by decide

theorem test_witness_OneWireStartWindow : { State.reset with var := .oneWire }.st = .idle ∧
    { State.reset with var := .oneWire }.var = .oneWire ∧
    ∃ t, exec (.rate 1000000) { State.reset with var := .oneWire } = .next t :=
  ⟨rfl, rfl, _, rfl⟩

theorem test_witness_HistoryPrimitives : 2 ≤ (two .ascP .tx 2 0 0 0).ehc.val ∧ (two .ifA .tx 3 0 0 0).ehc.val = 3 ∧
    (two .ascA .tx 1 0 0 0).ehc.val < 2 ∧ (two .ascP .tx 2 0 0 0).ehc.val < 3 := by decide

theorem test_witness_NonQualifying :
    (two .ascA .tx 1 0 0 0).wspec.getLsbD (wspecBit .ch0 .rise) = false ∧
    (two .halted .tx 3 0 0 0).wspec.getLsbD (wspecBit .ch0 .fall) = false ∧
    State.reset.wspec.getLsbD (wspecBit .ch0 .rise) = false := by decide

theorem test_witness_ChannelOneIsIgnored : (one .ascA 1 0 0 0).var = .oneWire := by decide

theorem test_witness_EdgeInIdle : (two .idle .tx 0 0 0 0).st = .idle ∧ (two .idle .tx 0 0 0 0).cfgd = true ∧
    (two .idle .tx 0 0 0 0).var = .twoWire := by decide

theorem test_witness_AscA : (two .ascA .tx 1 0 0 0).awaits .ascA 1 1 ∧ (two .ascA .tx 1 0 0 0).dirf = .tx ∧
    (two .ascA .rx 1 0 0 0).awaits .ascA 1 (BitVec.allOnes 64) ∧ (two .ascA .rx 1 0 0 0).dirf = .rx := by decide

theorem test_witness_AscP : (two .ascP .tx 2 12000 0 0).awaits .ascP 2 13270 ∧ (two .ascP .tx 2 12000 0 0).dirf = .tx ∧
    (two .ascP .rx 2 12000 0 0).awaits .ascP 2 13270 ∧ (two .ascP .rx 2 12000 0 0).dirf = .rx ∧
    (two .ascP .tx 2 12000 0 0).matchesSymbol .sp (13333 - 12000) = true ∧
    (two .ascP .tx 2 12000 0 0).matchesSymbol .sp (13334 - 12000) = false := by decide

theorem test_witness_IfA : (two .ifA .tx 3 13270 12000 0).awaits .ifA 3 16270 ∧
    (two .ifA .rx 3 13270 12000 0).awaits .ifA 3 16270 ∧ (two .ifA .rx 3 13270 12000 0).dirf = .rx ∧
    (one .ifA 3 13270 12000 0).awaits .ifA 3 32170 ∧ (one .ifA 3 13270 12000 0).var = .oneWire ∧
    (one .ifA 3 13270 12000 0).matchesSymbol .oa (32170 - 13270) = false ∧
    (one .ifA 3 13270 12000 0).matchesSymbol .ep (32170 - 13270) = true := by decide

/-- A one-bit and a zero-bit at the first and the last index with room, in both directions. -/
theorem test_witness_BitPair : (pair .tx 3000 0).awaits .ifP 3 17270 ∧ (pair .tx 3000 0).pairIsOne 17270 ∧
    (pair .rx 1000 39).awaits .ifP 3 15270 ∧ ¬ (pair .rx 1000 39).pairIsOne 15270 ∧
    (pair .rx 1000 39).pairIsZero 15270 ∧ (40 : BitIndex).val = (pair .rx 1000 39).bi.val + 1 ∧
    (1 : BitIndex).val = (pair .tx 3000 0).bi.val + 1 ∧ (pair .tx 3000 0).dirf = .tx ∧ (pair .rx 1000 39).dirf = .rx := by
  decide

theorem test_witness_FortyFirstBit : (pair .tx 3000 40).awaits .ifP 3 17270 ∧ (pair .tx 3000 40).pairIsOne 17270 ∧
    (pair .rx 1000 40).pairIsZero 15270 ∧ (pair .tx 3000 40).bi.val = 40 := by decide

theorem test_witness_EndPulse : (pair .tx 18051 3).awaits .ifP 3 31322 ∧ ¬ (pair .tx 18051 3).pairIsOne 31322 ∧
    ¬ (pair .tx 18051 3).pairIsZero 31322 ∧ (pair .tx 18051 3).pairIsEnd := by decide

theorem test_witness_Mismatch : (pair .tx 18050 3).awaits .ifP 3 32320 ∧ ¬ (pair .tx 18050 3).pairIsOne 32320 ∧
    ¬ (pair .tx 18050 3).pairIsZero 32320 ∧ ¬ (pair .tx 18050 3).pairIsEnd := by decide

/-- At equality and below it (section 3.9, V15). -/
theorem test_witness_Seq : (two .ascA .tx 1 10 0 0).st.inAttempt ∧ (two .ascA .tx 1 10 0 0).cfgd = true ∧
    (two .ascA .tx 1 10 0 0).qualifies .ch0 .fall = true ∧ 1 ≤ (two .ascA .tx 1 10 0 0).ehc.val ∧
    (10 : Sample).toNat ≤ (two .ascA .tx 1 10 0 0).t0.toNat ∧ (0 : Sample).toNat ≤ (two .ascA .tx 1 10 0 0).t0.toNat := by
  decide

theorem test_witness_ForbiddenHistoryRead : (two .ascA .tx 0 0 0 0).st.inAttempt ∧ (two .ascA .tx 0 0 0 0).ehc.val = 0 ∧
    (two .ascA .tx 0 0 0 0).qualifies .ch0 .fall = true ∧ (two .ifP .tx 1 0 0 0).st = .ifP ∧
    (two .ifP .tx 1 0 0 0).ehc.val = 1 ∧ (two .ifP .tx 1 0 0 0).qualifies .ch0 .rise = true ∧
    (two .ifP .tx 1 0 0 0).t0.toNat < (1 : Sample).toNat := by decide

theorem test_witness_Reversal : (39 : Nat) < 40 ∧ (0xfffff : RawWord).toNat < 2 ^ (20 : BitIndex).val ∧
    (0x1fffff : RawWord).toNat < 2 ^ (21 : BitIndex).val ∧ (20 : BitIndex).val ≤ 20 ∧ (40 : BitIndex).val = 40 := by decide

theorem test_witness_EdgeEventsFrame : ∃ t, exec (.edge .ch0 .rise 17270) (pair .tx 3000 5) = .next t := ⟨_, rfl⟩

theorem test_witness_NextStates : Instr.r0 17270 ≠ .rst ∧ (∃ t, exec (.r0 17270) (pair .tx 3000 5) = .next t) ∧
    decode 0x500000000000000000#72 ≠ .ok .rst ∧ ∃ t, runWord 0x500000000000000000#72 (pair .tx 3000 5) = .next t :=
  ⟨by decide, ⟨_, rfl⟩, by decide, _, rfl⟩

theorem test_witness_Inspection : (two .ascA .tx 1 0 0 0).withoutUnread =
    { two .ascA .tx 1 0 0 0 with rate := 3, dir := .rx, fault := ⟨true, true, true, true⟩ }.withoutUnread := by decide

theorem test_witness_Unspecified : (two .ascA .tx 1 5 6 7).specified = (two .ascA .tx 1 5 8 9).specified ∧
    State.reset.specified = { State.reset with thr := thrMega, rate := 9, fs := 4, t0 := 1 }.specified := by decide

/-- The greatest shift that keeps the indices in 64 bits. -/
theorem test_witness_Translation : (two .ascA .tx 1 1 0 0).shiftable (BitVec.allOnes 64 - 1) ∧
    (two .ascA .tx 1 1 0 0).shiftable 5 ∧ (12001 : Sample).toNat + (5 : Sample).toNat < 2 ^ 64 := by decide

theorem test_witness_Inv : (two .ifP .tx 3 16270 13270 12000).Inv ∧
    ∃ t, step (two .ifP .tx 3 16270 13270 12000) = .next t :=
  ⟨by decide, _, rfl⟩

theorem test_witness_Tables : { waiting with wlo := buildWlo 1000000, whi := buildWhi 1000000 }.tablesFollowRate ∧
    ∃ t, step { waiting with wlo := buildWlo 1000000, whi := buildWhi 1000000 } = .next t :=
  ⟨fun _ => ⟨by decide, by decide, rfl, rfl⟩, _, rfl⟩

theorem test_witness_RecordsLegal : { pair .tx 3000 5 with out := [⟨0, 13270, .start, 0⟩] }.Inv ∧
    { pair .tx 3000 5 with out := [⟨0, 13270, .start, 0⟩, ⟨1, 2, .parity, 26⟩, ⟨1, 2, .bit, 39⟩] }.recordsLegal := by
  decide

end Sys2Proof.Tests
end

section
/-! SUPPORT. EOC in every state, and what a step keeps and answers, from what the events and a reserved word do. -/

namespace Sys2Proof.Machine

@[simp] theorem exec_nop (s : State) : exec .nop s = .next s := rfl

/-- R121, R154: EOC halts in every state, and is seen in nothing else. -/
@[simp] theorem exec_eoc (s : State) : exec .eoc s = .next (s.goto .halted) := by
  cases hs : s.st with
  | halted =>
    have hself : s.goto .halted = s := by rw [← hs]; rfl
    simp [exec, execEoc, hs, hself]
  | idle => simp [exec, execEoc, hs]
  | ascA | ascP | ifA | ifP => simp only [exec, execEoc, hs]; rfl

/-- R9: outside IDLE and HALTED a frame attempt is in progress. -/
theorem Phase.inAttempt_iff (p : Phase) : p.inAttempt ↔ p ≠ .idle ∧ p ≠ .halted := by
  cases p <;> simp [Phase.inAttempt]

/-- A property that holds whatever is left in `IN`, and that every event and a reserved word keep, is kept by every step. -/
theorem step_keeps {P : State → Prop} (hinput : ∀ s l, P s → P { s with input := l })
    (hexec : ∀ i s t, P s → exec i s = .next t → P t) (hill : ∀ s, P s → P (s.takeCondition .ill))
    {s t : State} (hs : P s) (h : step s = .next t) : P t := by
  cases hin : s.input with
  | nil =>
    simp only [step, hin, Host.Outcome.next.injEq] at h
    exact h ▸ hs
  | cons w rest =>
    have hrest := hinput s rest hs
    rw [step_cons hin] at h
    cases hw : decode w with
    | ok i => exact hexec i _ t hrest (by rwa [runWord_ok hw] at h)
    | error r =>
      rw [runWord_error hw] at h
      obtain ⟨-, he⟩ | ⟨-, he⟩ := reservedEvent_cases { s with input := rest }
      · rw [he, Host.Outcome.next.injEq] at h
        exact h ▸ hrest
      · rw [he, Host.Outcome.next.injEq] at h
        exact h ▸ hill _ hrest

/-- If every event answers a next state, so does the step (a reserved word always does). -/
theorem step_answers {s : State} (hexec : ∀ i rest, ∃ t, exec i { s with input := rest } = .next t) :
    ∃ t, step s = .next t := by
  cases hin : s.input with
  | nil => exact ⟨s, by simp [step, hin]⟩
  | cons w rest =>
    rw [step_cons hin]
    cases hw : decode w with
    | ok i => rw [runWord_ok hw]; exact hexec i rest
    | error r =>
      rw [runWord_error hw]
      obtain ⟨-, he⟩ | ⟨-, he⟩ := reservedEvent_cases { s with input := rest }
      · exact ⟨_, he⟩
      · exact ⟨_, he⟩

end Sys2Proof.Machine
end

section
/-! SUPPORT. The invariant of R14 to R16, R19 and R100 under each update of the state. -/

namespace Sys2Proof.Machine

/-- With no attempt in progress the invariant only speaks of the history's order (R19 (a)). -/
theorem State.inv_of_noAttempt {s : State} (hp : s.st = .idle ∨ s.st = .halted) (ho : s.historyOrdered) : s.Inv := by
  have hatt : ¬ s.st.inAttempt := by rw [Phase.inAttempt_iff]; exact fun ⟨hi, hh⟩ => hp.elim hi hh
  have hfr : ¬ s.st.inFrame := fun h => hatt (.inr (.inr h))
  exact ⟨ho, ⟨fun h => absurd (.inl h) hatt, fun h => absurd (.inr (.inl h)) hatt, fun h => absurd h hfr⟩,
    fun h => absurd h hfr, fun h => absurd h hfr, fun h => absurd h hatt, fun h => absurd h hatt⟩

/-- R91 keeps R19 (a) when the index is later than the last one. -/
theorem State.historyOrdered_record {s : State} {x : Sample} (ho : s.historyOrdered)
    (hx : 1 ≤ s.ehc.val → s.t0.toNat < x.toNat) : (s.record x).historyOrdered := by
  obtain ⟨h10, h21⟩ := ho
  constructor
  · intro he
    simp only [State.record_ehc, countUp_val] at he
    exact hx (by omega)
  · intro he
    simp only [State.record_ehc, countUp_val] at he
    exact h10 (by omega)

/-- Recording a later index keeps the invariant: the count only grows, and a frame's history only moves on. -/
theorem State.inv_record {s : State} {x : Sample} (h : s.Inv) (hx : s.t0.toNat < x.toNat) : (s.record x).Inv := by
  obtain ⟨ho, ⟨hA, hP, hF⟩, hraw, hfs, hcfg, hdir⟩ := h
  refine ⟨State.historyOrdered_record ho fun _ => hx, ⟨?_, ?_, ?_⟩, hraw, ?_, hcfg, hdir⟩
  · intro hs
    have := hA hs
    simp only [State.record_ehc, countUp_val]
    omega
  · intro hs
    have := hP hs
    simp only [State.record_ehc, countUp_val]
    omega
  · intro hs
    have := hF hs
    simp only [State.record_ehc, countUp_val]
    omega
  · intro hs
    have hlt := ho.2 (hF hs)
    have hle := hfs hs
    simp only [State.record_fs, State.record_t2]
    omega

/-- R103: an attempt starts with one entry, in a direction that is legal. -/
theorem State.inv_startAttempt {s : State} (hc : s.cfgd = true) (ch : Channel) (x : Sample) : (s.startAttempt ch x).Inv := by
  refine ⟨by simp [State.historyOrdered], by simp [State.historyCounted, Phase.inFrame],
    by simp [State.rawBelowIndex, Phase.inFrame], by simp [State.frameStartOrdered, Phase.inFrame], fun _ => hc, ?_⟩
  intro _ hv
  rw [State.startAttempt_var] at hv
  rw [State.startAttempt_dirf, hv]
  rfl

/-- R161: a condition leaves the block in IDLE, in HALTED or where it was. -/
theorem State.inv_takeCondition {s : State} (h : s.Inv) (c : Condition) : (s.takeCondition c).Inv := by
  have ho : (s.takeCondition c).historyOrdered := by
    simpa only [State.historyOrdered, State.takeCondition_ehc, State.takeCondition_t0, State.takeCondition_t1,
      State.takeCondition_t2] using h.1
  cases c with
  | ill => exact h
  | configurationError | truncatedCapture => exact State.inv_of_noAttempt (.inr rfl) ho
  | symbolMismatch | spuriousStart | seq | ovl => exact State.inv_of_noAttempt (.inl rfl) ho

theorem State.inv_goto_halted {s : State} (h : s.Inv) : (s.goto .halted).Inv :=
  State.inv_takeCondition h .truncatedCapture

theorem State.inv_completeFrame {s : State} (h : s.Inv) (es ee : Sample) : (s.completeFrame es ee).Inv :=
  State.inv_of_noAttempt (.inl rfl) h.1

/-- R104: the start-passive segment begins with two entries recorded. -/
theorem State.inv_goto_ascP {s : State} (h : s.Inv) (hs : s.st = .ascA) (he : 2 ≤ s.ehc.val) : (s.goto .ascP).Inv := by
  obtain ⟨ho, -, -, -, hcfg, hdir⟩ := h
  exact ⟨ho, by simpa [State.historyCounted, Phase.inFrame] using he, by simp [State.rawBelowIndex, Phase.inFrame],
    by simp [State.frameStartOrdered, Phase.inFrame], fun _ => hcfg (.inl hs), fun _ => hdir (.inl hs)⟩

/-- R107: within a frame. -/
theorem State.inv_goto_ifP {s : State} (h : s.Inv) (hs : s.st = .ifA) : (s.goto .ifP).Inv := by
  obtain ⟨ho, ⟨-, -, hF⟩, hraw, hfs, hcfg, hdir⟩ := h
  have hf : s.st.inFrame := .inl hs
  exact ⟨ho, by simpa [State.historyCounted, Phase.inFrame] using hF hf, fun _ => hraw hf, fun _ => hfs hf,
    fun _ => hcfg (.inr (.inr hf)), fun _ => hdir (.inr (.inr hf))⟩

/-- R106: a frame begins with an empty accumulator at the oldest entry. -/
theorem State.inv_confirmStart {s : State} (h : s.Inv) (hs : s.st = .ascP) (he : s.ehc.val = 3) : s.confirmStart.Inv := by
  obtain ⟨ho, -, -, -, hcfg, hdir⟩ := h
  exact ⟨ho, by simpa [State.historyCounted, Phase.inFrame] using he, by simp [State.rawBelowIndex],
    by simp [State.frameStartOrdered], fun _ => hcfg (.inr (.inl hs)), fun _ => hdir (.inr (.inl hs))⟩

/-- R112, R113 keep R14: a bit written at the index stays below the next power of two. -/
theorem writeBit_lt {raw : RawWord} {i : BitIndex} (h : raw.toNat < 2 ^ i.val) (b : Bool) :
    (writeBit raw i b).toNat < 2 ^ (i.val + 1) := by
  have hgrow : 2 ^ i.val < 2 ^ (i.val + 1) := Nat.pow_lt_pow_right (by omega) (by omega)
  cases b with
  | false => exact lt_trans h hgrow
  | true =>
    have hbit : (1#40 <<< i.val).toNat ≤ 2 ^ i.val := by
      rw [BitVec.toNat_shiftLeft, BitVec.toNat_ofNat, Nat.shiftLeft_eq]
      exact le_trans (Nat.mod_le _ _) (by norm_num)
    simp only [writeBit, if_true, BitVec.toNat_or]
    exact Nat.or_lt_two_pow (lt_trans h hgrow) (lt_of_le_of_lt hbit hgrow)

/-- R109: whatever the pair is. -/
theorem State.inv_applyPair {s : State} (h : s.Inv) (hs : s.st = .ifP) (c : PairClass) : (s.applyPair c).Inv := by
  obtain ⟨b, hlt, e⟩ | ⟨-, -, e⟩ | ⟨-, e⟩ | ⟨-, e⟩ := s.applyPair_cases c <;> rw [e]
  · obtain ⟨ho, ⟨-, -, hF⟩, hraw, hfs, hcfg, hdir⟩ := h
    have hf : s.st.inFrame := .inr hs
    exact ⟨ho, by simpa [State.historyCounted, Phase.inFrame] using hF hf, fun _ => writeBit_lt (hraw hf) b,
      fun _ => hfs hf, fun _ => hcfg (.inr (.inr hf)), fun _ => hdir (.inr (.inr hf))⟩
  · exact State.inv_takeCondition h .ovl
  · exact State.inv_completeFrame h _ _
  · exact State.inv_takeCondition h .symbolMismatch

theorem State.inv_edge {s t : State} {ch : Channel} {pol : Polarity} {x : Sample} (h : s.Inv)
    (ht : exec (.edge ch pol x) s = .next t) : t.Inv := by
  obtain rfl | ⟨hc, -, -, rfl⟩ | ⟨-, -, -, -, -, -, rfl⟩ | ⟨-, -, he, hx, hrule⟩ := exec_edge_next ht
  · exact h
  · exact State.inv_startAttempt hc ch x
  · exact State.inv_takeCondition h .seq
  · have hr : (s.record x).Inv := State.inv_record h hx
    have hcount : (s.record x).ehc.val = min (s.ehc.val + 1) 3 := rfl
    obtain ⟨hs, rfl | rfl⟩ | ⟨hs, h2, rfl | rfl⟩ | ⟨hs, rfl | ⟨-, rfl⟩⟩ | ⟨hs, -, rfl⟩ := hrule
    · exact State.inv_goto_ascP hr hs (by omega)
    · exact State.inv_takeCondition hr .spuriousStart
    · exact State.inv_confirmStart hr hs (by omega)
    · exact State.inv_takeCondition hr .spuriousStart
    · exact State.inv_goto_ifP hr hs
    · exact State.inv_completeFrame hr _ _
    · exact State.inv_applyPair hr hs _

theorem State.inv_rate {s t : State} {hz : BitVec 32} (h : s.Inv) (ht : exec (.rate hz) s = .next t) : t.Inv := by
  obtain ⟨-, e⟩ | ⟨-, -, e⟩ | ⟨hs, -, e⟩ | ⟨-, -, e⟩ := exec_rate_cases hz s <;> rw [e] at ht <;> cases ht
  · exact h
  · exact State.inv_takeCondition h .configurationError
  · exact State.inv_of_noAttempt (.inl hs) h.1
  · exact State.inv_takeCondition h .ill

theorem State.inv_opt {s t : State} {a : BitVec 7} {b : BitOrder} {v : Variant} {d : Direction} (h : s.Inv)
    (ht : exec (.opt a b v d) s = .next t) : t.Inv := by
  obtain ⟨-, e⟩ | ⟨hs, e⟩ | ⟨-, -, e⟩ := exec_opt_cases a b v d s <;> rw [e] at ht <;> cases ht
  · exact h
  · exact State.inv_of_noAttempt (.inl hs) h.1
  · exact State.inv_takeCondition h .ill

theorem State.inv_rst (s : State) : ({ State.reset with input := s.input } : State).Inv :=
  State.inv_of_noAttempt (.inl rfl) ⟨by simp [State.reset], by simp [State.reset]⟩

theorem exec_keeps_inv (i : Instr) : ∀ s t : State, s.Inv → exec i s = .next t → t.Inv := by
  induction i using forall_instr with
  | nop => rintro s _ h ⟨⟩; exact h
  | edge ch pol x => exact fun _ _ => State.inv_edge
  | rate hz => exact fun _ _ => State.inv_rate
  | opt a b v d => exact fun _ _ => State.inv_opt
  | eoc => intro s t h ht; cases (exec_eoc s).symm.trans ht; exact State.inv_goto_halted h
  | rst => rintro s _ - ⟨⟩; exact State.inv_rst s

/-- Settles O56: each event keeps the invariant, and a reserved word changes nothing it speaks of. -/
theorem everyStepKeepsTheInvariant : Obligations.EveryStepKeepsTheInvariant := by
  intro s t hs ht
  exact step_keeps (P := State.Inv) (fun _ _ h => h) exec_keeps_inv (fun _ h => State.inv_takeCondition h .ill) hs ht

/-- Settles O55: nothing is in progress, no rate is accepted and `OUT` is empty. -/
theorem resetMeetsTheInvariant : Obligations.ResetMeetsTheInvariant :=
  ⟨State.inv_rst State.reset, by simp [State.tablesFollowRate, State.reset], by simp [State.recordsLegal, State.reset], rfl⟩

end Sys2Proof.Machine
end

section
/-! SUPPORT. When an edge event stops (entry 5), and that the invariant rules it out. -/

namespace Sys2Proof.Machine

/-- With the history R19 gives it, the rule of every state of an attempt answers a next state. -/
theorem State.stateRule_answers {s : State} (h2 : 2 ≤ s.ehc.val) (h3 : s.st = .ascP ∨ s.st = .ifP → s.ehc.val = 3) :
    ∃ t, s.stateRule = .next t := by
  unfold State.stateRule
  cases hs : s.st with
  | idle | halted => exact ⟨s, rfl⟩
  | ascA => exact ⟨_, State.startActiveEnds_of_le h2⟩
  | ascP => exact ⟨_, State.startPassiveEnds_of_full (h3 (.inl hs))⟩
  | ifA =>
    cases hv : s.var with
    | twoWire => exact ⟨_, State.activeEnds_twoWire hv⟩
    | oneWire => exact ⟨_, State.activeEnds_oneWire hv h2⟩
  | ifP => exact ⟨_, State.passiveEnds_of_full (h3 (.inr hs))⟩

theorem State.prelude_answers {s : State} (h : s.Inv) (hp : s.st.inAttempt) (x : Sample) :
    ∃ t, s.prelude x = .next t := by
  obtain ⟨-, ⟨hA, hP, hF⟩, -⟩ := h
  have he : 1 ≤ s.ehc.val := by
    obtain hs | hs | hs | hs := hp
    · exact hA hs
    · exact le_trans (by omega) (hP hs)
    · exact (hF (.inl hs)).symm ▸ (by omega)
    · exact (hF (.inr hs)).symm ▸ (by omega)
  by_cases hx : x.toNat ≤ s.t0.toNat
  · exact ⟨_, State.prelude_notLater he hx⟩
  · rw [State.prelude_later he (by omega)]
    have hcount : (s.record x).ehc.val = min (s.ehc.val + 1) 3 := rfl
    refine State.stateRule_answers (by omega) ?_
    rintro (hs | hs)
    · have := hP hs
      omega
    · have := hF (.inr hs)
      omega

theorem State.onEdge_answers {s : State} (h : s.Inv) (ch : Channel) (pol : Polarity) (x : Sample) :
    ∃ t, s.onEdge ch pol x = .next t := by
  by_cases hig : s.st = .halted ∨ s.cfgd = false ∨ s.qualifies ch pol = false
  · exact ⟨s, State.onEdge_ignored hig⟩
  · simp only [not_or, Bool.not_eq_false] at hig
    obtain ⟨hh, hc, hq⟩ := hig
    by_cases hi : s.st = .idle
    · exact ⟨_, State.onEdge_idle hi hc hq⟩
    · rw [State.onEdge_attempt hi hh hc hq]
      exact State.prelude_answers h (s.st.inAttempt_iff.mpr ⟨hi, hh⟩) x

theorem exec_answers (i : Instr) : ∀ s : State, s.Inv → ∃ t, exec i s = .next t := by
  induction i using forall_instr with
  | nop => exact fun s _ => ⟨s, rfl⟩
  | edge ch pol x => intro s h; rw [exec_edge]; exact State.onEdge_answers h ch pol x
  | rate hz =>
    intro s _
    obtain ⟨-, e⟩ | ⟨-, -, e⟩ | ⟨-, -, e⟩ | ⟨-, -, e⟩ := exec_rate_cases hz s <;> exact ⟨_, e⟩
  | opt a b v d =>
    intro s _
    obtain ⟨-, e⟩ | ⟨-, e⟩ | ⟨-, -, e⟩ := exec_opt_cases a b v d s <;> exact ⟨_, e⟩
  | eoc => exact fun s _ => ⟨_, exec_eoc s⟩
  | rst => exact fun s _ => ⟨_, exec_rst s⟩

/-- Settles O57: R19 (b) gives every rule the entries it reads. -/
theorem everyStepAnswersANextState : Obligations.EveryStepAnswersANextState :=
  fun _ hs => step_answers fun i _ => exec_answers i _ hs

/-- R102: with no entry there is no `T0` to compare with. -/
theorem State.prelude_of_empty {s : State} (h : s.ehc.val = 0) (x : Sample) :
    s.prelude x = .fault .historyReadForbidden := by
  simp [State.prelude, h]

/-- R105 reads `T2`, which needs a full history. -/
theorem State.startPassiveEnds_of_notFull {s : State} (h : s.ehc.val ≠ 3) :
    s.startPassiveEnds = .fault .historyReadForbidden := by
  simp [State.startPassiveEnds, State.priorInterval, h]

/-- R109 reads the pair's active segment, which needs a full history. -/
theorem State.passiveEnds_of_notFull {s : State} (h : s.ehc.val ≠ 3) :
    s.passiveEnds = .fault .historyReadForbidden := by
  simp [State.passiveEnds, State.priorInterval, h]

theorem exec_edge_attempt {s : State} {ch : Channel} {pol : Polarity} (hp : s.st.inAttempt) (hc : s.cfgd = true)
    (hq : s.qualifies ch pol = true) (x : Sample) : exec (.edge ch pol x) s = s.prelude x := by
  obtain ⟨hi, hh⟩ := s.st.inAttempt_iff.mp hp
  rw [exec_edge, State.onEdge_attempt hi hh hc hq]

/-- Settles O42: the prelude has no `T0`, or the rule of the state has no third entry. -/
theorem forbiddenHistoryReadStops : Obligations.ForbiddenHistoryReadStops := by
  refine ⟨fun s ch pol x hp hc hq he => ?_, fun s ch pol x hp hc hq he hx => ?_⟩
  · rw [exec_edge_attempt hp hc hq, State.prelude_of_empty he]
  · have hnot : (s.record x).ehc.val ≠ 3 := by simp [he]
    have hatt : s.st.inAttempt := hp.elim (fun h => .inr (.inl h)) fun h => .inr (.inr (.inr h))
    rw [exec_edge_attempt hatt hc hq, State.prelude_later (by omega) hx]
    obtain hs | hs := hp
    · simp only [State.stateRule, State.record_st, hs, State.startPassiveEnds_of_notFull hnot]
    · simp only [State.stateRule, State.record_st, hs, State.passiveEnds_of_notFull hnot]

end Sys2Proof.Machine
end

section
/-! SUPPORT. What an edge event leaves alone (R32), and what each event does to `CFGD` and the tables. -/

namespace Sys2Proof.Machine

@[simp] theorem Instr.edge_inj {ch ch' : Channel} {pol pol' : Polarity} {x x' : Sample} :
    Instr.edge ch pol x = .edge ch' pol' x' ↔ ch = ch' ∧ pol = pol' ∧ x = x' := by
  cases ch <;> cases pol <;> cases ch' <;> cases pol' <;> simp [Instr.edge]

section EdgeIsNoOther

variable (ch : Channel) (pol : Polarity) (x : Sample)

@[simp] theorem Instr.edge_ne_rate (hz : BitVec 32) : Instr.edge ch pol x ≠ .rate hz := by
  cases ch <;> cases pol <;> nofun

@[simp] theorem Instr.edge_ne_opt (a : BitVec 7) (b : BitOrder) (v : Variant) (d : Direction) :
    Instr.edge ch pol x ≠ .opt a b v d := by
  cases ch <;> cases pol <;> nofun

@[simp] theorem Instr.nop_ne_edge : Instr.nop ≠ .edge ch pol x := by cases ch <;> cases pol <;> nofun

@[simp] theorem Instr.eoc_ne_edge : Instr.eoc ≠ .edge ch pol x := by cases ch <;> cases pol <;> nofun

@[simp] theorem Instr.rate_ne_edge (hz : BitVec 32) : Instr.rate hz ≠ .edge ch pol x :=
  (Instr.edge_ne_rate ch pol x hz).symm

@[simp] theorem Instr.opt_ne_edge (a : BitVec 7) (b : BitOrder) (v : Variant) (d : Direction) :
    Instr.opt a b v d ≠ .edge ch pol x :=
  (Instr.edge_ne_opt ch pol x a b v d).symm

end EdgeIsNoOther

/-- What every edge event leaves alone, and that `OUT` only grows (R32). -/
structure State.EdgeFrame (s t : State) : Prop where
  cfgd : t.cfgd = s.cfgd
  rate : t.rate = s.rate
  acc : t.acc = s.acc
  bord : t.bord = s.bord
  var : t.var = s.var
  dir : t.dir = s.dir
  thr : t.thr = s.thr
  wlo : t.wlo = s.wlo
  whi : t.whi = s.whi
  cfg : t.fault.cfg = s.fault.cfg
  ill : t.fault.ill = s.fault.ill
  input : t.input = s.input
  out : s.out <+: t.out

theorem State.edgeFrame_refl (s : State) : s.EdgeFrame s := by constructor <;> simp

theorem State.edgeFrame_startAttempt (s : State) (ch : Channel) (x : Sample) : s.EdgeFrame (s.startAttempt ch x) := by
  constructor <;> simp

theorem State.edgeFrame_goto (s : State) (p : Phase) : s.EdgeFrame (s.goto p) := by constructor <;> simp

theorem State.edgeFrame_confirmStart (s : State) : s.EdgeFrame s.confirmStart := by constructor <;> simp

theorem State.edgeFrame_completeFrame (s : State) (es ee : Sample) : s.EdgeFrame (s.completeFrame es ee) := by
  constructor <;> simp

theorem State.edgeFrame_seq (s : State) : s.EdgeFrame (s.takeCondition .seq) := by
  constructor <;> simp [FaultFlags.raise]

theorem State.edgeFrame_ovl (s : State) : s.EdgeFrame (s.takeCondition .ovl) := by
  constructor <;> simp [FaultFlags.raise]

theorem State.edgeFrame_symbolMismatch (s : State) : s.EdgeFrame (s.takeCondition .symbolMismatch) := by
  constructor <;> simp

theorem State.edgeFrame_applyPair (s : State) (c : PairClass) : s.EdgeFrame (s.applyPair c) := by
  obtain ⟨b, hlt, e⟩ | ⟨-, -, e⟩ | ⟨-, e⟩ | ⟨-, e⟩ := s.applyPair_cases c <;> rw [e]
  · constructor <;> simp
  · exact s.edgeFrame_ovl
  · exact s.edgeFrame_completeFrame _ _
  · exact s.edgeFrame_symbolMismatch

/-- Recording the edge first (R91) touches none of the registers of the frame. -/
theorem State.edgeFrame_of_record {s t : State} {x : Sample} (h : (s.record x).EdgeFrame t) : s.EdgeFrame t :=
  { h with }

theorem exec_edge_frame {s t : State} {ch : Channel} {pol : Polarity} {x : Sample}
    (h : exec (.edge ch pol x) s = .next t) : s.EdgeFrame t := by
  obtain rfl | ⟨-, -, -, rfl⟩ | ⟨-, -, -, -, -, -, rfl⟩ | ⟨-, -, -, -, hrule⟩ := exec_edge_next h
  · exact State.edgeFrame_refl _
  · exact s.edgeFrame_startAttempt ch x
  · exact s.edgeFrame_seq
  · apply State.edgeFrame_of_record (x := x)
    obtain ⟨-, rfl | rfl⟩ | ⟨-, -, rfl | rfl⟩ | ⟨-, rfl | ⟨-, rfl⟩⟩ | ⟨-, -, rfl⟩ := hrule
    · exact State.edgeFrame_goto _ .ascP
    · exact State.edgeFrame_goto _ .idle
    · exact State.edgeFrame_confirmStart _
    · exact State.edgeFrame_goto _ .idle
    · exact State.edgeFrame_goto _ .ifP
    · exact State.edgeFrame_completeFrame _ _ _
    · exact State.edgeFrame_applyPair _ _

/-- Settles O47: the frame of an edge event, register by register. -/
theorem edgeEventsFrame : Obligations.EdgeEventsFrame := by
  intro s t ch pol x h
  obtain ⟨hcfgd, hrate, hacc, hbord, hvar, hdir, hthr, hwlo, hwhi, hcfg, hill, hinput, hout⟩ := exec_edge_frame h
  exact ⟨hcfgd, hrate, hacc, hbord, hvar, hdir, hthr, hwlo, hwhi, hcfg, hill, hinput, hout⟩

/-- R20: which events set `CFGD`. -/
theorem exec_cfgd (i : Instr) : ∀ s t : State, i ≠ .rst → exec i s = .next t →
    (t.cfgd = true ↔ s.cfgd = true ∨ (s.st = .idle ∧ ∃ hz : BitVec 32, hz ≠ 0 ∧ i = .rate hz)) := by
  induction i using forall_instr with
  | nop => rintro s _ - ⟨⟩; simp
  | edge ch pol x =>
    intro s t _ h
    simp [(exec_edge_frame h).cfgd]
  | rate hz =>
    intro s t _ h
    obtain ⟨hs, e⟩ | ⟨-, h0, e⟩ | ⟨hs, h0, e⟩ | ⟨hs, -, e⟩ := exec_rate_cases hz s <;> rw [e] at h <;> cases h
    · simp [hs]
    · simp [h0]
    · simpa [hs] using Or.inr h0
    · simp [hs]
  | opt a b v d =>
    intro s t _ h
    obtain ⟨-, e⟩ | ⟨-, e⟩ | ⟨-, -, e⟩ := exec_opt_cases a b v d s <;> rw [e] at h <;> cases h <;> simp
  | eoc => intro s t _ h; cases (exec_eoc s).symm.trans h; simp
  | rst => exact fun _ _ h => absurd rfl h

/-- Settles O22: RATE alone writes `CFGD`, and with `CFGD` clear no edge passes the first test. -/
theorem cfgdIsSetByAcceptedRateOnly : Obligations.CfgdIsSetByAcceptedRateOnly := by
  refine ⟨rfl, ?_, exec_cfgd, fun ch pol x s hc => ?_⟩
  · rintro s _ ⟨⟩
    rfl
  · rw [exec_edge, State.onEdge_ignored (.inr (.inl hc))]

/-- The table condition speaks of `CFGD`, `RATE` and the three tables only. -/
theorem State.tablesFollowRate_congr {s t : State} (h : s.tablesFollowRate) (hc : t.cfgd = s.cfgd) (hr : t.rate = s.rate)
    (ht : t.thr = s.thr) (hl : t.wlo = s.wlo) (hh : t.whi = s.whi) : t.tablesFollowRate := by
  simpa only [State.tablesFollowRate, hc, hr, ht, hl, hh] using h

theorem State.tablesFollowRate_takeCondition {s : State} (h : s.tablesFollowRate) (c : Condition) :
    (s.takeCondition c).tablesFollowRate :=
  State.tablesFollowRate_congr h (by simp) (by simp) (by simp) (by simp) (by simp)

theorem exec_keeps_tables (i : Instr) : ∀ s t : State, s.tablesFollowRate → exec i s = .next t → t.tablesFollowRate := by
  induction i using forall_instr with
  | nop => rintro s _ hs ⟨⟩; exact hs
  | edge ch pol x =>
    intro s t hs h
    have hf := exec_edge_frame h
    exact State.tablesFollowRate_congr hs hf.cfgd hf.rate hf.thr hf.wlo hf.whi
  | rate hz =>
    intro s t hs h
    obtain ⟨-, e⟩ | ⟨-, -, e⟩ | ⟨-, h0, e⟩ | ⟨-, -, e⟩ := exec_rate_cases hz s <;> rw [e] at h <;> cases h
    · exact hs
    · exact State.tablesFollowRate_takeCondition hs .configurationError
    · exact fun _ => ⟨h0, rfl, rfl, rfl⟩
    · exact State.tablesFollowRate_takeCondition hs .ill
  | opt a b v d =>
    intro s t hs h
    obtain ⟨-, e⟩ | ⟨-, e⟩ | ⟨-, -, e⟩ := exec_opt_cases a b v d s <;> rw [e] at h <;> cases h
    · exact hs
    · exact hs
    · exact State.tablesFollowRate_takeCondition hs .ill
  | eoc => intro s t hs h; cases (exec_eoc s).symm.trans h; exact hs
  | rst => rintro s _ - ⟨⟩; exact fun hc => absurd hc Bool.false_ne_true

/-- Settles O58: only RATE and RST write what the condition speaks of. -/
theorem everyStepKeepsTheTables : Obligations.EveryStepKeepsTheTables := fun _ _ hs ht =>
  step_keeps (P := State.tablesFollowRate) (fun _ _ h => h) exec_keeps_tables
    (fun _ h => State.tablesFollowRate_takeCondition h .ill) hs ht

/-- Settles O11: each register as `State.reset` gives it. -/
theorem resetStateHoldsTheSpecifiedValues : Obligations.ResetStateHoldsTheSpecifiedValues :=
  ⟨rfl, rfl, rfl, rfl, rfl, rfl, rfl, rfl, rfl, rfl, rfl, rfl⟩

end Sys2Proof.Machine
end

section
/-! SUPPORT. The causes of the fault flags (R28, R155 to R157). -/

namespace Sys2Proof.Machine

/-- R102, R155: an edge of the attempt whose index does not increase. -/
def State.SeqCause (s : State) (ch : Channel) (pol : Polarity) (x : Sample) : Prop :=
  s.st.inAttempt ∧ s.cfgd = true ∧ s.qualifies ch pol = true ∧ x.toNat ≤ s.t0.toNat

/-- R114, R156: an edge that ends a bit pair with no room for the bit. -/
def State.OvlCause (s : State) (ch : Channel) (pol : Polarity) (x : Sample) : Prop :=
  s.st = .ifP ∧ s.cfgd = true ∧ s.bi.val = 40 ∧ s.qualifies ch pol = true ∧ s.t0.toNat < x.toNat ∧
    (s.pairIsOne x ∨ s.pairIsZero x)

/-- Section 8 of 42_frame_state_machine.md, with the exact condition of each answer. -/
theorem exec_edge_next_exact {ch : Channel} {pol : Polarity} {x : Sample} {s t : State}
    (h : exec (.edge ch pol x) s = .next t) :
    ((s.st = .halted ∨ s.cfgd = false ∨ s.qualifies ch pol = false) ∧ t = s) ∨
      (s.st = .idle ∧ t = s.startAttempt ch x) ∨
      (s.SeqCause ch pol x ∧ t = s.takeCondition .seq) ∨
      (s.st.inAttempt ∧ s.cfgd = true ∧ s.qualifies ch pol = true ∧ s.t0.toNat < x.toNat ∧
        (s.record x).stateRule = .next t) := by
  by_cases hig : s.st = .halted ∨ s.cfgd = false ∨ s.qualifies ch pol = false
  · rw [exec_edge, State.onEdge_ignored hig] at h
    cases h
    exact .inl ⟨hig, rfl⟩
  · simp only [not_or, Bool.not_eq_false] at hig
    obtain ⟨hh, hc, hq⟩ := hig
    by_cases hi : s.st = .idle
    · rw [exec_edge, State.onEdge_idle hi hc hq] at h
      cases h
      exact .inr (.inl ⟨hi, rfl⟩)
    · have hatt := s.st.inAttempt_iff.mpr ⟨hi, hh⟩
      rw [exec_edge_attempt hatt hc hq] at h
      obtain ⟨-, ⟨hx, rfl⟩ | ⟨hx, hr⟩⟩ := State.prelude_next h
      · exact .inr (.inr (.inl ⟨⟨hatt, hc, hq, hx⟩, rfl⟩))
      · exact .inr (.inr (.inr ⟨hatt, hc, hq, hx, hr⟩))

/-- R109: a pair is a bit iff it passes the one-bit or the zero-bit test. -/
theorem State.classifyPair_bit_iff (s : State) (p c : Int) :
    (s.classifyPair p c = .oneBit ∨ s.classifyPair p c = .zeroBit) ↔
      (s.matchesSymbol .oa p = true ∧ s.matchesSymbol .op c = true) ∨
        (s.matchesSymbol .za p = true ∧ s.matchesSymbol .zp c = true) := by
  unfold State.classifyPair
  split_ifs <;> simp_all

/-- R114, R156: a pair raises OVL iff it is a bit and `BI` is 40. -/
theorem State.applyPair_fault (s : State) (c : PairClass) :
    (s.applyPair c).fault = if s.bi.val = 40 ∧ (c = .oneBit ∨ c = .zeroBit) then s.fault.raise .ovl else s.fault := by
  obtain ⟨b, hlt, e⟩ | ⟨hfull, hbit, e⟩ | ⟨rfl, e⟩ | ⟨rfl, e⟩ := s.applyPair_cases c <;> rw [e]
  · rw [if_neg (by omega)]; rfl
  · rw [if_pos ⟨hfull, hbit⟩]; rfl
  · simp
  · simp

/-- R104 to R109: only the rule of `IF_P` raises a flag. -/
theorem State.stateRule_fault {s t : State} (h : s.stateRule = .next t) (hs : s.st ≠ .ifP) : t.fault = s.fault := by
  unfold State.stateRule at h
  cases hst : s.st with
  | idle | halted => rw [hst] at h; cases h; rfl
  | ascA =>
    rw [hst] at h
    obtain ⟨-, ⟨-, rfl⟩ | ⟨-, rfl⟩⟩ := State.startActiveEnds_next h <;> rfl
  | ascP =>
    rw [hst] at h
    obtain ⟨-, ⟨-, rfl⟩ | ⟨-, rfl⟩⟩ := State.startPassiveEnds_next h <;> rfl
  | ifA =>
    rw [hst] at h
    obtain ⟨-, rfl⟩ | ⟨-, -, ⟨-, -, rfl⟩ | ⟨-, rfl⟩⟩ := State.activeEnds_next h <;> rfl
  | ifP => exact absurd hst hs

/-- R109 after the edge is recorded: OVL is raised iff the 41st bit arrives. -/
theorem State.stateRule_record_fault {s t : State} {x : Sample} (h : (s.record x).stateRule = .next t) (hs : s.st = .ifP) :
    t.fault = if s.bi.val = 40 ∧ (s.pairIsOne x ∨ s.pairIsZero x) then s.fault.raise .ovl else s.fault := by
  simp only [State.stateRule, State.record_st, hs] at h
  obtain ⟨-, rfl⟩ := State.passiveEnds_next h
  simp only [State.applyPair_fault, State.classifyPair_bit_iff, State.matchesSymbol_record]
  rfl

/-- R155, R156: an edge event raises SEQ, or OVL, or no flag, each for its own cause. -/
theorem exec_edge_fault {ch : Channel} {pol : Polarity} {x : Sample} {s t : State}
    (h : exec (.edge ch pol x) s = .next t) :
    (t.fault = s.fault ∧ ¬ s.SeqCause ch pol x ∧ ¬ s.OvlCause ch pol x) ∨
      (t.fault = s.fault.raise .seq ∧ s.SeqCause ch pol x ∧ ¬ s.OvlCause ch pol x) ∨
      (t.fault = s.fault.raise .ovl ∧ ¬ s.SeqCause ch pol x ∧ s.OvlCause ch pol x) := by
  obtain ⟨hig, rfl⟩ | ⟨hi, rfl⟩ | ⟨hseq, rfl⟩ | ⟨hatt, hc, hq, hx, hr⟩ := exec_edge_next_exact h
  · refine .inl ⟨rfl, ?_, ?_⟩
    · rintro ⟨hatt, hc, hq, -⟩
      simp_all [Phase.inAttempt_iff]
    · rintro ⟨hs, hc, -, hq, -⟩
      simp_all
  · refine .inl ⟨rfl, ?_, ?_⟩
    · rintro ⟨hatt, -⟩
      simp_all [Phase.inAttempt_iff]
    · rintro ⟨hs, -⟩
      simp_all
  · refine .inr (.inl ⟨rfl, hseq, ?_⟩)
    obtain ⟨-, -, -, hle⟩ := hseq
    rintro ⟨-, -, -, -, hlt, -⟩
    exact absurd hle (by omega)
  · have hnoseq : ¬ s.SeqCause ch pol x := fun ⟨_, _, _, hle⟩ => absurd hx (by omega)
    by_cases hs : s.st = .ifP
    · have hf := State.stateRule_record_fault hr hs
      by_cases hov : s.bi.val = 40 ∧ (s.pairIsOne x ∨ s.pairIsZero x)
      · rw [if_pos hov] at hf
        exact .inr (.inr ⟨hf, hnoseq, hs, hc, hov.1, hq, hx, hov.2⟩)
      · rw [if_neg hov] at hf
        exact .inl ⟨hf, hnoseq, fun ⟨_, _, hbi, _, _, hbit⟩ => hov ⟨hbi, hbit⟩⟩
    · exact .inl ⟨State.stateRule_fault (s := s.record x) hr hs, hnoseq, fun ⟨hs', _⟩ => hs hs'⟩

@[simp] theorem FaultFlags.get_raise (f : FaultFlags) (g k : FaultFlag) :
    (f.raise g).get k = true ↔ f.get k = true ∨ k = g := by
  cases g <;> cases k <;> simp [FaultFlags.raise, FaultFlags.get]

/-- R28, R150, R155 to R157: what raises each flag. -/
def FlagCause (i : Instr) (s : State) : FaultFlag → Prop
  | .cfg => s.st = .idle ∧ i = .rate 0
  | .ill => s.st.inAttempt ∧ ((∃ hz, i = .rate hz) ∨ ∃ a b v d, i = .opt a b v d)
  | .seq => s.st.inAttempt ∧ s.cfgd = true ∧
      ∃ ch pol x, i = .edge ch pol x ∧ s.qualifies ch pol = true ∧ x.toNat ≤ s.t0.toNat
  | .ovl => s.st = .ifP ∧ s.cfgd = true ∧ s.bi.val = 40 ∧
      ∃ ch pol x, i = .edge ch pol x ∧ s.qualifies ch pol = true ∧ s.t0.toNat < x.toNat ∧ (s.pairIsOne x ∨ s.pairIsZero x)

theorem flagCause_nop (s : State) (g : FaultFlag) : ¬ FlagCause .nop s g := by
  cases g <;> simp [FlagCause]

theorem flagCause_eoc (s : State) (g : FaultFlag) : ¬ FlagCause .eoc s g := by
  cases g <;> simp [FlagCause]

theorem flagCause_rate (hz : BitVec 32) (s : State) (g : FaultFlag) :
    FlagCause (.rate hz) s g ↔ (g = .cfg ∧ s.st = .idle ∧ hz = 0) ∨ (g = .ill ∧ s.st.inAttempt) := by
  cases g <;> simp [FlagCause]

theorem flagCause_opt (a : BitVec 7) (b : BitOrder) (v : Variant) (d : Direction) (s : State) (g : FaultFlag) :
    FlagCause (.opt a b v d) s g ↔ g = .ill ∧ s.st.inAttempt := by
  cases g <;> simp [FlagCause]

theorem flagCause_edge (ch : Channel) (pol : Polarity) (x : Sample) (s : State) (g : FaultFlag) :
    FlagCause (.edge ch pol x) s g ↔ (g = .seq ∧ s.SeqCause ch pol x) ∨ (g = .ovl ∧ s.OvlCause ch pol x) := by
  cases g with
  | cfg | ill => simp [FlagCause]
  | seq => simp [FlagCause, State.SeqCause]
  | ovl => simp [FlagCause, State.OvlCause]

/-- A flag is set after an event iff it was set before or the event gives its cause. -/
theorem exec_flag_iff (i : Instr) : ∀ s t : State, i ≠ .rst → exec i s = .next t →
    ∀ g, t.fault.get g = true ↔ s.fault.get g = true ∨ FlagCause i s g := by
  induction i using forall_instr with
  | nop => rintro s _ - ⟨⟩ g; simp [flagCause_nop]
  | edge ch pol x =>
    intro s t _ h g
    rw [flagCause_edge]
    obtain ⟨e, hns, hno⟩ | ⟨e, hs, hno⟩ | ⟨e, hns, ho⟩ := exec_edge_fault h
    · simp [e, hns, hno]
    · simp [e, hs, hno]
    · simp [e, hns, ho]
  | rate hz =>
    intro s t _ h g
    rw [flagCause_rate, Phase.inAttempt_iff]
    obtain ⟨hs, e⟩ | ⟨hs, h0, e⟩ | ⟨hs, h0, e⟩ | ⟨hi, hh, e⟩ := exec_rate_cases hz s <;> rw [e] at h <;> cases h
    · simp [hs]
    · simp [hs, h0]
    · simpa [hs] using fun _ hz0 => absurd hz0 h0
    · simp [hi, hh]
  | opt a b v d =>
    intro s t _ h g
    rw [flagCause_opt, Phase.inAttempt_iff]
    obtain ⟨hs, e⟩ | ⟨hs, e⟩ | ⟨hi, hh, e⟩ := exec_opt_cases a b v d s <;> rw [e] at h <;> cases h
    · simp [hs]
    · simp [hs]
    · simp [hi, hh]
  | eoc => intro s t _ h g; cases (exec_eoc s).symm.trans h; simp [flagCause_eoc]
  | rst => exact fun _ _ h => absurd rfl h

/-- Settles O49, one flag at a time. -/
theorem faultFlagsHaveTheirOwnCauses : Obligations.FaultFlagsHaveTheirOwnCauses := by
  intro i s t hi h
  have hflag := exec_flag_iff i s t hi h
  exact ⟨hflag .cfg, hflag .ill, hflag .seq, hflag .ovl⟩

end Sys2Proof.Machine
end

section
/-! SUPPORT. Two runs compared over any event: what `Related` gives for an edge event, extended to the other events. -/

namespace Sys2Proof.Machine

/-- Related answers are equal after the views that relate their next states. -/
theorem Related.mapNext_eq {f g : State → State} {r r' : Result} (h : Related (fun a b => f a = g b) r r') :
    mapNext f r = mapNext g r' := by
  cases h with
  | next h => exact congrArg Host.Outcome.next h
  | fault r => rfl
  | refused r => rfl

/-- `R` is kept by each update that an event other than an edge or RST can make of `s` and of `s'`. -/
structure KeptByControl (R : State → State → Prop) (s s' : State) : Prop where
  same : R s s'
  badRate : R (s.takeCondition .configurationError) (s'.takeCondition .configurationError)
  rate : ∀ hz, R (s.acceptRate hz) (s'.acceptRate hz)
  options : ∀ a b v d, R (s.acceptOptions a b v d) (s'.acceptOptions a b v d)
  ill : R (s.takeCondition .ill) (s'.takeCondition .ill)
  halt : R (s.goto .halted) (s'.goto .halted)

theorem exec_rate_related {R : State → State → Prop} {s s' : State} (hst : s'.st = s.st) (hk : KeptByControl R s s')
    (hz : BitVec 32) : Related R (exec (.rate hz) s) (exec (.rate hz) s') := by
  simp only [exec, execRate, hst]
  cases s.st with
  | halted => exact .next hk.same
  | idle =>
    refine .next ?_
    split
    · exact hk.badRate
    · exact hk.rate hz
  | ascA | ascP | ifA | ifP => exact .next hk.ill

theorem exec_opt_related {R : State → State → Prop} {s s' : State} (hst : s'.st = s.st) (hk : KeptByControl R s s')
    (a : BitVec 7) (b : BitOrder) (v : Variant) (d : Direction) :
    Related R (exec (.opt a b v d) s) (exec (.opt a b v d) s') := by
  simp only [exec, execOpt, hst]
  cases s.st with
  | halted => exact .next hk.same
  | idle => exact .next (hk.options a b v d)
  | ascA | ascP | ifA | ifP => exact .next hk.ill

/-- Every event but RST answers alike on two states on which its tests agree. -/
theorem exec_related {R : State → State → Prop} {s s' : State} (ht : ∀ x, SameTests s s' x x)
    (hu : ∀ x, KeptByUpdates R s s' x x) (hk : KeptByControl R s s') (i : Instr) (hi : i ≠ .rst) :
    Related R (exec i s) (exec i s') := by
  have hst : s'.st = s.st := (ht 0).st
  induction i using forall_instr with
  | nop => exact .next hk.same
  | edge ch pol x => simpa only [exec_edge] using onEdge_related (ht x) (hu x) ch pol
  | rate hz => exact exec_rate_related hst hk hz
  | opt a b v d => exact exec_opt_related hst hk a b v d
  | eoc => simpa only [exec_eoc] using Related.next hk.halt
  | rst => exact absurd rfl hi

end Sys2Proof.Machine
end

section
/-! SUPPORT. `RATE`, `DIR` and `FAULT` are read by no rule (R21, R25, R28): every update gives the same state, but for them, with
those registers cleared first. -/

namespace Sys2Proof.Machine

theorem State.withoutUnread_applyPair (s : State) (c : PairClass) :
    (s.applyPair c).withoutUnread = (s.withoutUnread.applyPair c).withoutUnread := by
  have hbit : ∀ b, (s.acceptBit b).withoutUnread = (s.withoutUnread.acceptBit b).withoutUnread := by
    intro b
    by_cases h : s.bi.val < 40
    · rw [State.acceptBit_of_lt h, State.acceptBit_of_lt (s := s.withoutUnread) h]
      rfl
    · rw [State.acceptBit_of_full h, State.acceptBit_of_full (s := s.withoutUnread) h]
      rfl
  cases c with
  | oneBit => exact hbit true
  | zeroBit => exact hbit false
  | endPulse | mismatch => rfl

theorem sameTests_withoutUnread (s : State) (x : Sample) : SameTests s s.withoutUnread x x where
  st := rfl
  cfgd := rfl
  var := rfl
  dirf := rfl
  ehc := rfl
  bi := rfl
  matcher := fun _ _ _ => rfl
  later := fun _ => Iff.rfl
  current := fun _ => rfl
  prior := fun _ => rfl

theorem keptByUpdates_withoutUnread (s : State) (x : Sample) :
    KeptByUpdates (fun a b => a.withoutUnread = b.withoutUnread) s s.withoutUnread x x where
  same := rfl
  start := fun _ _ => rfl
  seq := rfl
  toAscP := fun _ => rfl
  toIfP := fun _ => rfl
  spurious := rfl
  confirm := fun _ => rfl
  completeNow := fun _ _ => rfl
  pair := fun _ _ c => State.withoutUnread_applyPair (s.record x) c

theorem keptByControl_withoutUnread (s : State) :
    KeptByControl (fun a b => a.withoutUnread = b.withoutUnread) s s.withoutUnread where
  same := rfl
  badRate := rfl
  rate := fun _ => rfl
  options := fun _ _ _ _ => rfl
  ill := rfl
  halt := rfl

/-- No event reads what `withoutUnread` clears. -/
theorem mapNext_withoutUnread_exec (i : Instr) (s : State) :
    mapNext State.withoutUnread (exec i s) = mapNext State.withoutUnread (exec i s.withoutUnread) := by
  by_cases hi : i = .rst
  · subst hi
    rfl
  · exact Related.mapNext_eq (exec_related (sameTests_withoutUnread s) (keptByUpdates_withoutUnread s)
      (keptByControl_withoutUnread s) i hi)

/-- Settles O52: both answers are that of the state with the three registers cleared. -/
theorem inspectionRegistersAreNeverRead : Obligations.InspectionRegistersAreNeverRead := by
  intro i s s' h
  rw [mapNext_withoutUnread_exec i s, mapNext_withoutUnread_exec i s', h]

end Sys2Proof.Machine
end

section
/-! SUPPORT. `OUT` is read by no rule and only appended to (R34, R43): every update commutes with records already there. -/

namespace Sys2Proof.Machine

/-- The state with the records `l` in front of those of `OUT`. -/
def State.prependOut (l : List Annotation) (s : State) : State := { s with out := l ++ s.out }

theorem State.prependOut_emptied (s : State) : ({ s with out := [] } : State).prependOut s.out = s := by
  simp [State.prependOut]

theorem State.prependOut_emit (l : List Annotation) (s : State) (a : Annotation) :
    (s.prependOut l).emit a = (s.emit a).prependOut l := by
  simp [State.prependOut, State.emit]

theorem State.prependOut_completeFrame (l : List Annotation) (s : State) (es ee : Sample) :
    (s.prependOut l).completeFrame es ee = (s.completeFrame es ee).prependOut l := by
  simp only [State.completeFrame, State.prependOut_emit]
  rfl

theorem State.prependOut_confirmStart (l : List Annotation) (s : State) :
    (s.prependOut l).confirmStart = s.confirmStart.prependOut l := by
  simp only [State.confirmStart, State.prependOut_emit]
  rfl

theorem State.prependOut_takeCondition (l : List Annotation) (s : State) (c : Condition) :
    (s.prependOut l).takeCondition c = (s.takeCondition c).prependOut l := by
  cases c with
  | symbolMismatch => exact congrArg (State.goto · .idle) (State.prependOut_emit l s s.errorRecord)
  | ovl => exact congrArg (State.goto · .idle) (State.prependOut_emit l (s.raiseFlag .ovl) s.errorRecord)
  | configurationError | spuriousStart | truncatedCapture | seq | ill => rfl

theorem State.prependOut_applyPair (l : List Annotation) (s : State) (c : PairClass) :
    (s.prependOut l).applyPair c = (s.applyPair c).prependOut l := by
  have hbit : ∀ b, (s.prependOut l).acceptBit b = (s.acceptBit b).prependOut l := by
    intro b
    by_cases h : s.bi.val < 40
    · rw [State.acceptBit_of_lt h, State.acceptBit_of_lt (s := s.prependOut l) h]
      simp only [State.prependOut_emit]
      rfl
    · rw [State.acceptBit_of_full h, State.acceptBit_of_full (s := s.prependOut l) h]
      exact State.prependOut_takeCondition l s .ovl
  cases c with
  | oneBit => exact hbit true
  | zeroBit => exact hbit false
  | endPulse => exact State.prependOut_completeFrame l s _ _
  | mismatch => exact State.prependOut_takeCondition l s .symbolMismatch

theorem sameTests_prependOut (l : List Annotation) (s : State) (x : Sample) : SameTests (s.prependOut l) s x x where
  st := rfl
  cfgd := rfl
  var := rfl
  dirf := rfl
  ehc := rfl
  bi := rfl
  matcher := fun _ _ _ => rfl
  later := fun _ => Iff.rfl
  current := fun _ => rfl
  prior := fun _ => rfl

theorem keptByUpdates_prependOut (l : List Annotation) (s : State) (x : Sample) :
    KeptByUpdates (fun a b => id a = b.prependOut l) (s.prependOut l) s x x where
  same := rfl
  start := fun _ _ => rfl
  seq := rfl
  toAscP := fun _ => rfl
  toIfP := fun _ => rfl
  spurious := rfl
  confirm := fun _ => State.prependOut_confirmStart l (s.record x)
  completeNow := fun _ _ => State.prependOut_completeFrame l (s.record x) _ _
  pair := fun _ _ c => State.prependOut_applyPair l (s.record x) c

theorem keptByControl_prependOut (l : List Annotation) (s : State) :
    KeptByControl (fun a b => id a = b.prependOut l) (s.prependOut l) s where
  same := rfl
  badRate := rfl
  rate := fun _ => rfl
  options := fun _ _ _ _ => rfl
  ill := rfl
  halt := rfl

theorem mapNext_id (r : Result) : mapNext id r = r := by cases r <;> rfl

/-- Records already in `OUT` stay in front of what an event appends, and are seen in nothing else. -/
theorem exec_prependOut (l : List Annotation) (s : State) {i : Instr} (hi : i ≠ .rst) :
    exec i (s.prependOut l) = mapNext (State.prependOut l) (exec i s) := by
  rw [← mapNext_id (exec i (s.prependOut l))]
  exact Related.mapNext_eq (exec_related (sameTests_prependOut l s) (keptByUpdates_prependOut l s)
    (keptByControl_prependOut l s) i hi)

theorem State.applyPair_out_length_le (s : State) (c : PairClass) : (s.applyPair c).out.length ≤ s.out.length + 2 := by
  obtain ⟨b, hlt, e⟩ | ⟨-, -, e⟩ | ⟨-, e⟩ | ⟨-, e⟩ := s.applyPair_cases c <;> rw [e] <;> simp

theorem exec_edge_out_length_le {s t : State} {ch : Channel} {pol : Polarity} {x : Sample}
    (h : exec (.edge ch pol x) s = .next t) : t.out.length ≤ s.out.length + 2 := by
  obtain rfl | ⟨-, -, -, rfl⟩ | ⟨-, -, -, -, -, -, rfl⟩ | ⟨-, -, -, -, hrule⟩ := exec_edge_next h
  · omega
  · simp
  · simp
  · obtain ⟨-, rfl | rfl⟩ | ⟨-, -, rfl | rfl⟩ | ⟨-, rfl | ⟨-, rfl⟩⟩ | ⟨-, -, rfl⟩ := hrule
    case inr.inr.inr => exact State.applyPair_out_length_le (s.record x) _
    all_goals simp

/-- R43: at most two records an event, of an end pulse and its frame. -/
theorem exec_out_length_le (i : Instr) : ∀ s t : State, i ≠ .rst → exec i s = .next t → t.out.length ≤ s.out.length + 2 := by
  induction i using forall_instr with
  | nop => rintro s _ - ⟨⟩; omega
  | edge ch pol x => exact fun _ _ _ => exec_edge_out_length_le
  | rate hz =>
    intro s t _ h
    obtain ⟨-, e⟩ | ⟨-, -, e⟩ | ⟨-, -, e⟩ | ⟨-, -, e⟩ := exec_rate_cases hz s <;> rw [e] at h <;> cases h <;> simp
  | opt a b v d =>
    intro s t _ h
    obtain ⟨-, e⟩ | ⟨-, e⟩ | ⟨-, -, e⟩ := exec_opt_cases a b v d s <;> rw [e] at h <;> cases h <;> simp
  | eoc => intro s t _ h; cases (exec_eoc s).symm.trans h; simp
  | rst => exact fun _ _ h => absurd rfl h

/-- Settles O51: the records of `OUT` are put back in front after the event ran without them. -/
theorem outputIsAppendOnly : Obligations.OutputIsAppendOnly := by
  refine ⟨fun i s hi => ?_, exec_out_length_le⟩
  calc exec i s = exec i (({ s with out := [] } : State).prependOut s.out) := by rw [State.prependOut_emptied]
    _ = mapNext (State.prependOut s.out) (exec i { s with out := [] }) := exec_prependOut _ _ hi

end Sys2Proof.Machine
end

section
/-! SUPPORT. Two states that agree on all they specify (R15, R18, R20, R31) keep agreeing: no rule reads a register before the
event that gives it a value. -/

namespace Sys2Proof.Machine

/-- `State.specified` of two states is the same, register by register. -/
structure SpecifiedAlike (s s' : State) : Prop where
  st : s'.st = s.st
  bi : s'.bi = s.bi
  raw : s'.raw = s.raw
  dirf : s'.dirf = s.dirf
  ehc : s'.ehc = s.ehc
  cfgd : s'.cfgd = s.cfgd
  acc : s'.acc = s.acc
  bord : s'.bord = s.bord
  var : s'.var = s.var
  dir : s'.dir = s.dir
  fault : s'.fault = s.fault
  out : s'.out = s.out
  input : s'.input = s.input
  t0 : 1 ≤ s.ehc.val → s'.t0 = s.t0
  t1 : 2 ≤ s.ehc.val → s'.t1 = s.t1
  t2 : s.ehc.val = 3 → s'.t2 = s.t2
  fs : s.st.inFrame → s'.fs = s.fs
  rate : s.cfgd = true → s'.rate = s.rate
  thr : s.cfgd = true → s'.thr = s.thr
  wlo : s.cfgd = true → s'.wlo = s.wlo
  whi : s.cfgd = true → s'.whi = s.whi

/-- Two choices with the same alternative are equal iff they agree where the condition holds. -/
theorem ite_eq_ite_iff {α : Type} {p : Prop} [Decidable p] {a b c : α} :
    (if p then a else c) = (if p then b else c) ↔ (p → b = a) := by
  split <;> simp_all [eq_comm]

theorem specified_eq_iff (s s' : State) : s.specified = s'.specified ↔ SpecifiedAlike s s' := by
  constructor
  · intro h
    simp only [State.specified, State.mk.injEq] at h
    obtain ⟨hst, hbi, hraw, hfs, hdirf, ht0, ht1, ht2, hehc, hcfgd, hrate, hacc, hbord, hvar, hdir, hthr, hwlo, hwhi,
      hfault, hout, hinput⟩ := h
    simp only [← hst, ← hehc, ← hcfgd, ite_eq_ite_iff] at hfs ht0 ht1 ht2 hrate hthr hwlo hwhi
    exact ⟨hst.symm, hbi.symm, hraw.symm, hdirf.symm, hehc.symm, hcfgd.symm, hacc.symm, hbord.symm, hvar.symm,
      hdir.symm, hfault.symm, hout.symm, hinput.symm, ht0, ht1, ht2, hfs, hrate, hthr, hwlo, hwhi⟩
  · intro h
    simp only [State.specified, State.mk.injEq, h.st, h.ehc, h.cfgd, ite_eq_ite_iff]
    exact ⟨trivial, h.bi.symm, h.raw.symm, h.fs, h.dirf.symm, h.t0, h.t1, h.t2, trivial, trivial, h.rate, h.acc.symm,
      h.bord.symm, h.var.symm, h.dir.symm, h.thr, h.wlo, h.whi, h.fault.symm, h.out.symm, h.input.symm⟩

section Updates

variable {s s' : State}

/-- A record index that counts as valid afterwards was valid before, or is the one just recorded. -/
theorem SpecifiedAlike.record (h : SpecifiedAlike s s') (x : Sample) : SpecifiedAlike (s.record x) (s'.record x) :=
  { h with
    ehc := by simp [h.ehc]
    t0 := fun _ => rfl
    t1 := fun he => h.t0 (by simp at he; omega)
    t2 := fun he => h.t1 (by simp at he; omega) }

/-- `FS` has to agree where the new state is in a frame. -/
theorem SpecifiedAlike.goto (h : SpecifiedAlike s s') {p : Phase} (hp : p.inFrame → s.st.inFrame) :
    SpecifiedAlike (s.goto p) (s'.goto p) :=
  { h with
    st := rfl
    fs := fun hf => h.fs (hp hf) }

theorem SpecifiedAlike.emit (h : SpecifiedAlike s s') {a a' : Annotation} (ha : a' = a) :
    SpecifiedAlike (s.emit a) (s'.emit a') :=
  { h with out := by simp [h.out, ha] }

theorem SpecifiedAlike.raiseFlag (h : SpecifiedAlike s s') (f : FaultFlag) :
    SpecifiedAlike (s.raiseFlag f) (s'.raiseFlag f) :=
  { h with fault := by simp [h.fault] }

theorem SpecifiedAlike.goto_idle (h : SpecifiedAlike s s') : SpecifiedAlike (s.goto .idle) (s'.goto .idle) :=
  h.goto (by simp [Phase.inFrame])

theorem SpecifiedAlike.goto_halted (h : SpecifiedAlike s s') : SpecifiedAlike (s.goto .halted) (s'.goto .halted) :=
  h.goto (by simp [Phase.inFrame])

theorem SpecifiedAlike.startAttempt (h : SpecifiedAlike s s') (ch : Channel) (x : Sample) :
    SpecifiedAlike (s.startAttempt ch x) (s'.startAttempt ch x) :=
  { h with
    st := rfl
    ehc := rfl
    dirf := by simp [h.var]
    t0 := fun _ => rfl
    t1 := fun he => absurd he (by simp)
    t2 := fun he => absurd he (by simp)
    fs := by simp [Phase.inFrame] }

/-- R106 reads `T2`, so the history must be full. -/
theorem SpecifiedAlike.confirmStart (h : SpecifiedAlike s s') (he : s.ehc.val = 3) :
    SpecifiedAlike s.confirmStart s'.confirmStart :=
  { h with
    st := rfl
    bi := rfl
    raw := rfl
    fs := fun _ => h.t2 he
    out := by simp [h.out, h.t2 he, h.t0 (by omega)] }

/-- R118 reads `T2`, so the history must be full. -/
theorem SpecifiedAlike.errorRecord (h : SpecifiedAlike s s') (he : s.ehc.val = 3) : s'.errorRecord = s.errorRecord := by
  simp [State.errorRecord, h.t2 he, h.t0 (by omega)]

/-- R137 reads `FS`, so a frame must be in progress. -/
theorem SpecifiedAlike.frameRecord (h : SpecifiedAlike s s') (hf : s.st.inFrame) (ee : Sample) :
    s'.frameRecord ee = s.frameRecord ee := by
  simp only [State.frameRecord, h.fs hf, h.var, h.dirf, h.raw, h.bord, h.bi]

theorem SpecifiedAlike.completeFrame (h : SpecifiedAlike s s') (hf : s.st.inFrame) {es es' ee ee' : Sample}
    (hes : es' = es) (hee : ee' = ee) : SpecifiedAlike (s.completeFrame es ee) (s'.completeFrame es' ee') := by
  subst hes hee
  exact ((h.emit rfl).emit (h.frameRecord hf _)).goto_idle

theorem SpecifiedAlike.acceptBit (h : SpecifiedAlike s s') (hf : s.st.inFrame) (he : s.ehc.val = 3) (b : Bool) :
    SpecifiedAlike (s.acceptBit b) (s'.acceptBit b) := by
  by_cases hlt : s.bi.val < 40
  · have hlt' : s'.bi.val < 40 := by rwa [h.bi]
    rw [State.acceptBit_of_lt hlt, State.acceptBit_of_lt hlt']
    exact
      { h with
        st := rfl
        bi := by simp [h.bi]
        raw := by simp [h.raw, h.bi]
        fs := fun _ => h.fs hf
        out := by simp [h.out, h.t2 he, h.t0 (by omega), h.var, h.bi] }
  · have hfull' : ¬ s'.bi.val < 40 := by rwa [h.bi]
    rw [State.acceptBit_of_full hlt, State.acceptBit_of_full hfull']
    exact ((h.raiseFlag .ovl).emit (h.errorRecord he)).goto_idle

theorem SpecifiedAlike.applyPair (h : SpecifiedAlike s s') (hf : s.st.inFrame) (he : s.ehc.val = 3) (c : PairClass) :
    SpecifiedAlike (s.applyPair c) (s'.applyPair c) := by
  cases c with
  | oneBit => exact h.acceptBit hf he true
  | zeroBit => exact h.acceptBit hf he false
  | endPulse => exact h.completeFrame hf (h.t2 he) (h.t1 (by omega))
  | mismatch => exact (h.emit (h.errorRecord he)).goto_idle

theorem SpecifiedAlike.acceptRate (h : SpecifiedAlike s s') (hz : BitVec 32) :
    SpecifiedAlike (s.acceptRate hz) (s'.acceptRate hz) :=
  { h with
    cfgd := rfl
    rate := fun _ => rfl
    thr := fun _ => rfl
    wlo := fun _ => rfl
    whi := fun _ => rfl }

theorem SpecifiedAlike.acceptOptions (h : SpecifiedAlike s s') (a : BitVec 7) (b : BitOrder) (v : Variant) (d : Direction) :
    SpecifiedAlike (s.acceptOptions a b v d) (s'.acceptOptions a b v d) :=
  { h with
    acc := rfl
    bord := rfl
    var := rfl
    dir := rfl }

/-- Every test of an edge event is on what the states specify. -/
theorem SpecifiedAlike.sameTests (h : SpecifiedAlike s s') (x : Sample) : SameTests s s' x x where
  st := h.st
  cfgd := h.cfgd
  var := h.var
  dirf := h.dirf
  ehc := h.ehc
  bi := h.bi
  matcher := fun hc => State.matchesSymbol_congr h.var h.acc (h.thr hc) (h.wlo hc) (h.whi hc)
  later := fun he => by rw [h.t0 he]
  current := fun he => by rw [h.t0 he]
  prior := fun he => by rw [h.t0 (by omega), h.t1 he]

theorem SpecifiedAlike.keptByUpdates (h : SpecifiedAlike s s') (x : Sample) : KeptByUpdates SpecifiedAlike s s' x x where
  same := h
  start := fun _ ch => h.startAttempt ch x
  seq := (h.raiseFlag .seq).goto_idle
  toAscP := fun _ => (h.record x).goto (by simp [Phase.inFrame])
  toIfP := fun hs => (h.record x).goto fun _ => .inl hs
  spurious := (h.record x).goto_idle
  confirm := fun he => (h.record x).confirmStart (by simp; omega)
  completeNow := fun hs he => (h.record x).completeFrame (.inl hs) (h.t0 he) rfl
  pair := fun hs he => (h.record x).applyPair (.inr hs) (by simp; omega)

theorem SpecifiedAlike.keptByControl (h : SpecifiedAlike s s') : KeptByControl SpecifiedAlike s s' where
  same := h
  badRate := (h.raiseFlag .cfg).goto_halted
  rate := h.acceptRate
  options := h.acceptOptions
  ill := h.raiseFlag .ill
  halt := h.goto_halted

/-- Every event keeps the agreement; RST leaves only `IN`, on which the states agree. -/
theorem SpecifiedAlike.exec (h : SpecifiedAlike s s') (i : Instr) :
    Related SpecifiedAlike (exec i s) (exec i s') := by
  by_cases hi : i = .rst
  · subst hi
    rw [exec_rst, exec_rst, h.input]
    exact .next ((specified_eq_iff _ _).mp rfl)
  · exact exec_related h.sameTests h.keptByUpdates h.keptByControl i hi

end Updates

/-- Settles O53: agreement on what is specified is kept by every event. -/
theorem unspecifiedRegistersNeverMatter : Obligations.UnspecifiedRegistersNeverMatter := by
  intro i s s' h
  apply Related.mapNext_eq
  simpa only [specified_eq_iff] using ((specified_eq_iff s s').mp h).exec i

end Sys2Proof.Machine
end

section
/-! SUPPORT. Decoding what the encoder writes (R55 to R61), and reading a serialised word back (R45). -/

namespace Sys2Proof

/-- R56, on the word of an edge. -/
theorem decode_edgeWord {arg : BitVec 4} (h : arg.extractLsb' 2 2 = 0#2) (s : Sample) :
    decode (eventWord 1#4 arg s) =
      .ok (.edge (if arg.getLsbD 1 then .ch1 else .ch0) (if arg.getLsbD 0 then .rise else .fall) s) := by
  simp [decode, decodeEdge, h]

/-- R66, clause by clause. -/
theorem EventWord.wellFormed_iff (w : EventWord) :
    w.wellFormed = true ↔ w.reservedOp = false ∧ w.reservedEdge = false ∧
      w.reservedRate = false ∧ w.reservedOpt = false ∧ w.reservedEoc = false := by
  simp [EventWord.wellFormed, EventWord.reserved, and_assoc]

/-- R57, on a word that is not reserved. -/
theorem decode_rate_of_wellFormed {w : EventWord} (h : w.wellFormed = true) (hop : w.opField = 2#4) :
    decode w = .ok (.rate (hzField w)) := by
  obtain ⟨-, -, hrate, -, -⟩ := w.wellFormed_iff.mp h
  obtain ⟨harg, hdata⟩ : w.argField = 0#4 ∧ w.dataField.extractLsb' 32 32 = 0#32 := by
    simpa [EventWord.reservedRate, hop] using hrate
  simp [decode, decodeRate, hop, harg, hdata]

/-- R58, on a word that is not reserved. -/
theorem decode_opt_of_wellFormed {w : EventWord} (h : w.wellFormed = true) (hop : w.opField = 3#4) :
    decode w = .ok (.opt (accField w) (bordField w) (varField w) (dirField w)) := by
  obtain ⟨-, -, -, hopt, -⟩ := w.wellFormed_iff.mp h
  obtain ⟨⟨harg, hhigh⟩, hseven⟩ : (w.argField = 0#4 ∧ w.dataField.extractLsb' 11 53 = 0#53) ∧
      w.dataField.extractLsb' 7 1 = 0#1 := by
    simpa [EventWord.reservedOpt, hop] using hopt
  simp [decode, decodeOpt, hop, harg, hhigh, hseven]

section OptionFields

variable (acc : BitVec 7) (bord : BitOrder) (var : Variant) (dir : Direction)

@[simp] theorem optData_acc : (optData acc bord var dir).extractLsb' 0 7 = acc :=
  BitVec.extractLsb'_append_eq_right

@[simp] theorem bordField_encode_opt : bordField (encode (.opt acc bord var dir)) = bord := by
  rw [encode, bordField_eventWord, getLsbD_optData]
  cases bord <;> rfl

@[simp] theorem varField_encode_opt : varField (encode (.opt acc bord var dir)) = var := by
  rw [encode, varField_eventWord, getLsbD_optData]
  cases var <;> rfl

@[simp] theorem dirField_encode_opt : dirField (encode (.opt acc bord var dir)) = dir := by
  rw [encode, dirField_eventWord, getLsbD_optData]
  cases dir <;> rfl

@[simp] theorem accField_encode_opt : accField (encode (.opt acc bord var dir)) = acc := by
  rw [encode, accField_eventWord, optData_acc]

end OptionFields

@[simp] theorem hzField_encode_rate (hz : BitVec 32) : hzField (encode (.rate hz)) = hz := by
  rw [encode, hzField_eventWord]
  exact BitVec.extractLsb'_append_eq_right

/-- The word of an event decodes to it: it is not reserved, and its fields are the operands. -/
theorem decode_encode (i : Instr) : decode (encode i) = .ok i := by
  cases i with
  | nop | eoc | rst => decide
  | f0 s | r0 s | f1 s | r1 s => exact decode_edgeWord (by decide) s
  | rate hz => rw [decode_rate_of_wellFormed (Laws.EncodesWellFormed.rate hz) (by simp [encode]), hzField_encode_rate]
  | opt acc bord var dir =>
    rw [decode_opt_of_wellFormed (Laws.EncodesWellFormed.opt acc bord var dir) (by simp [encode])]
    simp

theorem getElem?_lowBytes {n k : Nat} (h : k < n) (w : EventWord) :
    (lowBytes n w)[k]? = some (w.extractLsb' (8 * k) 8) := by
  induction n generalizing w k with
  | zero => omega
  | succ n ih =>
    cases k with
    | zero => rfl
    | succ k =>
      have hshift : (w >>> 8).extractLsb' (8 * k) 8 = w.extractLsb' (8 * (k + 1)) 8 := by
        apply BitVec.eq_of_getLsbD_eq
        intro j hj
        simp only [BitVec.getLsbD_extractLsb', BitVec.getLsbD_ushiftRight]
        congr 2
        omega
      rw [lowBytes, List.getElem?_cons_succ, ih (by omega), hshift]

@[simp] theorem length_serialise (w : EventWord) : (serialise w).length = 9 := length_lowBytes 9 w

/-- Nine bytes hold the whole word. -/
@[simp] theorem ofNat_littleEndian_serialise (w : EventWord) : BitVec.ofNat 72 (littleEndian (serialise w)) = w := by
  rw [serialise, littleEndian_lowBytes]
  apply BitVec.eq_of_toNat_eq
  rw [BitVec.toNat_ofNat, Nat.mod_mod]
  exact Nat.mod_eq_of_lt w.isLt

/-- Reading takes exactly the nine bytes of the word. -/
theorem decodeBytes_serialise_append (w : EventWord) (rest : List Byte) :
    decodeBytes (serialise w ++ rest) = (decode w).map fun i => (i, rest) := by
  have htake : (serialise w ++ rest).take 9 = serialise w := List.take_left' (length_serialise w)
  have hdrop : (serialise w ++ rest).drop 9 = rest := List.drop_left' (length_serialise w)
  have hlen : ¬ (serialise w ++ rest).length < 9 := by simp
  rw [decodeBytes, if_neg hlen, htake, hdrop, ofNat_littleEndian_serialise]
  cases decode w <;> rfl

/-- Settles O5: byte `k` by induction over the bytes, and the word from its nine bytes. -/
theorem serialisedWordsReadBack : Obligations.SerialisedWordsReadBack :=
  fun w rest => ⟨fun _ hk => getElem?_lowBytes hk w, decodeBytes_serialise_append w rest⟩

end Sys2Proof
end

section
/-! SUPPORT. `IN` is read by no rule (R40): every update commutes with another stream. So a run takes the words of a trace
one by one (R44, R47). -/

namespace Sys2Proof.Machine

theorem State.withInput_applyPair (l : List EventWord) (s : State) (c : PairClass) :
    (s.withInput l).applyPair c = (s.applyPair c).withInput l := by
  have hbit : ∀ b, (s.withInput l).acceptBit b = (s.acceptBit b).withInput l := by
    intro b
    by_cases h : s.bi.val < 40
    · rw [State.acceptBit_of_lt h, State.acceptBit_of_lt (s := s.withInput l) h]
      rfl
    · rw [State.acceptBit_of_full h, State.acceptBit_of_full (s := s.withInput l) h]
      rfl
  cases c with
  | oneBit => exact hbit true
  | zeroBit => exact hbit false
  | endPulse | mismatch => rfl

theorem sameTests_withInput (l : List EventWord) (s : State) (x : Sample) : SameTests (s.withInput l) s x x where
  st := rfl
  cfgd := rfl
  var := rfl
  dirf := rfl
  ehc := rfl
  bi := rfl
  matcher := fun _ _ _ => rfl
  later := fun _ => Iff.rfl
  current := fun _ => rfl
  prior := fun _ => rfl

theorem keptByUpdates_withInput (l : List EventWord) (s : State) (x : Sample) :
    KeptByUpdates (fun a b => id a = b.withInput l) (s.withInput l) s x x where
  same := rfl
  start := fun _ _ => rfl
  seq := rfl
  toAscP := fun _ => rfl
  toIfP := fun _ => rfl
  spurious := rfl
  confirm := fun _ => rfl
  completeNow := fun _ _ => rfl
  pair := fun _ _ c => State.withInput_applyPair l (s.record x) c

theorem keptByControl_withInput (l : List EventWord) (s : State) :
    KeptByControl (fun a b => id a = b.withInput l) (s.withInput l) s where
  same := rfl
  badRate := rfl
  rate := fun _ => rfl
  options := fun _ _ _ _ => rfl
  ill := rfl
  halt := rfl

/-- The words in `IN` are seen by no event, RST included, and stay. -/
theorem exec_withInput (i : Instr) (s : State) (l : List EventWord) :
    exec i (s.withInput l) = mapNext (State.withInput · l) (exec i s) := by
  by_cases hi : i = .rst
  · subst hi
    rfl
  · rw [← mapNext_id (exec i (s.withInput l))]
    exact Related.mapNext_eq (exec_related (sameTests_withInput l s) (keptByUpdates_withInput l s)
      (keptByControl_withInput l s) i hi)

/-- Settles O9: every update an event can make commutes with another stream. -/
theorem eventsDoNotSeeTheInputStream : Obligations.EventsDoNotSeeTheInputStream := exec_withInput

/-- Settles O7: the word is taken, and it runs as the event it decodes to. -/
theorem stepRunsTheDecodedEvent : Obligations.StepRunsTheDecodedEvent := by
  intro s w rest i hin hw
  rw [step_cons hin, runWord_ok hw]

/-- A step on the word of an event: the event runs as with nothing else in `IN`, and the rest is left. -/
theorem step_encode {s : State} {i : Instr} {rest : List EventWord} (h : s.input = encode i :: rest) :
    step s = mapNext (State.withInput · rest) (exec i (s.withInput [])) := by
  rw [stepRunsTheDecodedEvent s (encode i) rest i h (decode_encode i), ← exec_withInput]
  rfl

theorem exec_input {i : Instr} {s t : State} (h : exec i s = .next t) : t.input = s.input := by
  have hself : exec i s = mapNext (State.withInput · s.input) (exec i s) := exec_withInput i s s.input
  rw [h, mapNext, Host.Outcome.next.injEq] at hself
  rw [hself]
  rfl

/-- Settles O10, by induction on the trace, the state free. -/
theorem runIsTheFoldOfTheTrace : Obligations.RunIsTheFoldOfTheTrace := by
  intro is
  induction is with
  | nil =>
    intro s hin
    have hself : s = s.withInput [] := congrArg (s.withInput ·) hin
    exact congrArg Host.Outcome.next hself
  | cons i is ih =>
    intro s hin
    have hstep : core.step s = mapNext (State.withInput · (is.map encode)) (exec i (s.withInput [])) := step_encode hin
    simp only [List.length_cons, Host.Core.run, hstep]
    change _ = runEvents (i :: is) (s.withInput [])
    rw [runEvents]
    cases he : exec i (s.withInput []) with
    | next t =>
      have hempty : t.withInput [] = t := congrArg (t.withInput ·) (exec_input he).symm
      show core.run is.length (t.withInput (is.map encode)) = runEvents is t
      exact (ih (t.withInput (is.map encode)) rfl).trans (congrArg (runEvents is) hempty)
    | fault r => rfl
    | refused r => rfl

end Sys2Proof.Machine
end

section
/-! SUPPORT. The configuration registers in an attempt (R50, R180), and the spans and payloads of the records (R43, R64). -/

namespace Sys2Proof.Machine

/-- Settles O21: an edge leaves the configuration alone, RATE and OPT raise ILL, and EOC only halts. -/
theorem configurationIsFrozenInAnAttempt : Obligations.ConfigurationIsFrozenInAnAttempt := by
  intro i
  induction i using forall_instr with
  | nop => rintro s _ - - ⟨⟩; simp
  | edge ch pol x =>
    intro s t _ _ h
    obtain ⟨hcfgd, hrate, hacc, hbord, hvar, hdir, hthr, hwlo, hwhi, -⟩ := exec_edge_frame h
    exact ⟨hcfgd, hrate, hacc, hbord, hvar, hdir, hthr, hwlo, hwhi⟩
  | rate hz =>
    intro s t _ hatt h
    obtain ⟨hi, hh⟩ := s.st.inAttempt_iff.mp hatt
    cases (exec_rate_attempt hi hh hz).symm.trans h
    simp
  | opt a b v d =>
    intro s t _ hatt h
    obtain ⟨hi, hh⟩ := s.st.inAttempt_iff.mp hatt
    cases (exec_opt_attempt hi hh a b v d).symm.trans h
    simp
  | eoc => intro s t _ _ h; cases (exec_eoc s).symm.trans h; simp
  | rst => exact fun _ _ h => absurd rfl h

/-- R43, R64, for one record. -/
def Annotation.Legal (a : Annotation) : Prop := a.startSample.toNat < a.endSample.toNat ∧ a.payloadLegal = true

theorem State.recordsLegal_emit {s : State} {a : Annotation} (h : s.recordsLegal) (ha : a.Legal) :
    (s.emit a).recordsLegal := by
  rw [State.recordsLegal, State.emit_out, List.forall_mem_append, List.forall_mem_singleton]
  exact ⟨h, ha⟩

/-- R19 (a) with a full history. -/
theorem State.historyOrdered_full {s : State} (h : s.historyOrdered) (he : s.ehc.val = 3) :
    s.t2.toNat < s.t1.toNat ∧ s.t1.toNat < s.t0.toNat :=
  ⟨h.2 he, h.1 (by omega)⟩

section Records

variable {s : State}

theorem State.errorRecord_legal (ho : s.historyOrdered) (he : s.ehc.val = 3) : s.errorRecord.Legal := by
  obtain ⟨h21, h10⟩ := State.historyOrdered_full ho he
  exact ⟨h21.trans h10, rfl⟩

/-- R64: the index of a bit is below 40, and a PARITY record is one of position 10 or 26. -/
theorem bitRecord_payloadLegal {i : BitIndex} (hi : i.val < 40) (v : Variant) (a b : Sample) :
    (Annotation.mk a b (bitCategory v i) (indexPayload i)).payloadLegal = true := by
  have hval : (indexPayload i).toNat = i.val := by
    rw [indexPayload, BitVec.toNat_append]
    simpa using (by omega : i.val < 64)
  by_cases hp : v = .twoWire ∧ (i.val = 10 ∨ i.val = 26)
  · obtain ⟨rfl, hpos⟩ := hp
    have hcat : bitCategory .twoWire i = .parity := if_pos hpos
    simp [hcat, Annotation.payloadLegal, hval, hpos]
  · have hcat : bitCategory v i = .bit := by
      cases v with
      | oneWire => rfl
      | twoWire => exact if_neg fun h => hp ⟨rfl, h⟩
    simp [hcat, Annotation.payloadLegal, hval, hi]

/-- R64, R137: the upper bits of a frame value are 0, and label code 3 is never emitted. -/
theorem framePayload_fields (l : ParityLabel) (disp : RawWord) :
    (framePayload l disp).extractLsb' 42 6 = 0#6 ∧ (framePayload l disp).extractLsb' 40 2 = l.code := by
  rw [framePayload, BitVec.extractLsb'_append_eq_of_le (w := 40) (by omega),
    BitVec.extractLsb'_append_eq_of_le (w := 40) (by omega)]
  exact ⟨BitVec.extractLsb'_append_eq_left, BitVec.extractLsb'_append_eq_right⟩

theorem ParityLabel.code_ne_three (l : ParityLabel) : l.code ≠ 3#2 := by
  cases l <;> decide

theorem State.frameRecord_payloadLegal (s : State) (ee : Sample) : (s.frameRecord ee).payloadLegal = true := by
  obtain ⟨hzero, hlabel⟩ := framePayload_fields (parityLabel s.raw) (displayValue s.bord s.raw s.bi)
  have hcode := (parityLabel s.raw).code_ne_three
  unfold State.frameRecord frameCategory
  split <;> simp [Annotation.payloadLegal, hzero, hlabel, hcode]

/-- R117: the end pulse and the frame both end at `ee`, so each has to begin before it. -/
theorem State.recordsLegal_completeFrame (h : s.recordsLegal) {es ee : Sample} (hspan : es.toNat < ee.toNat)
    (hfs : s.fs.toNat < ee.toNat) : (s.completeFrame es ee).recordsLegal :=
  State.recordsLegal_emit (State.recordsLegal_emit h ⟨hspan, rfl⟩) ⟨hfs, s.frameRecord_payloadLegal ee⟩

theorem State.recordsLegal_confirmStart (h : s.recordsLegal) (ho : s.historyOrdered) (he : s.ehc.val = 3) :
    s.confirmStart.recordsLegal := by
  obtain ⟨h21, h10⟩ := State.historyOrdered_full ho he
  exact State.recordsLegal_emit h (a := ⟨s.t2, s.t0, .start, 0⟩) ⟨h21.trans h10, rfl⟩

theorem State.recordsLegal_applyPair (h : s.recordsLegal) (hinv : s.Inv) (hs : s.st = .ifP) (c : PairClass) :
    (s.applyPair c).recordsLegal := by
  obtain ⟨ho, ⟨-, -, hF⟩, -, hfs, -, -⟩ := hinv
  have he : s.ehc.val = 3 := hF (.inr hs)
  obtain ⟨h21, h10⟩ := State.historyOrdered_full ho he
  obtain ⟨b, hlt, e⟩ | ⟨-, -, e⟩ | ⟨-, e⟩ | ⟨-, e⟩ := s.applyPair_cases c <;> rw [e]
  · exact State.recordsLegal_emit h (a := ⟨s.t2, s.t0, bitCategory s.var s.bi, indexPayload s.bi⟩)
      ⟨h21.trans h10, bitRecord_payloadLegal hlt s.var s.t2 s.t0⟩
  · exact State.recordsLegal_emit h (State.errorRecord_legal ho he)
  · exact State.recordsLegal_completeFrame h h21 ((hfs (.inr hs)).trans_lt h21)
  · exact State.recordsLegal_emit h (State.errorRecord_legal ho he)

end Records

/-- The rules of an edge event apply to the history with the edge recorded, which the invariant orders. -/
theorem exec_edge_keeps_records {s t : State} {ch : Channel} {pol : Polarity} {x : Sample} (hinv : s.Inv)
    (h : s.recordsLegal) (ht : exec (.edge ch pol x) s = .next t) : t.recordsLegal := by
  obtain rfl | ⟨-, -, -, rfl⟩ | ⟨-, -, -, -, -, -, rfl⟩ | ⟨-, -, -, hx, hrule⟩ := exec_edge_next ht
  · exact h
  · exact h
  · exact h
  · have hr : (s.record x).recordsLegal := h
    have hrinv : (s.record x).Inv := State.inv_record hinv hx
    have ⟨hro, ⟨_, _, hrF⟩, _, hrfs, _, _⟩ := hrinv
    obtain ⟨-, rfl | rfl⟩ | ⟨-, h2, rfl | rfl⟩ | ⟨hs, rfl | ⟨-, rfl⟩⟩ | ⟨hs, -, rfl⟩ := hrule
    · exact hr
    · exact hr
    · exact State.recordsLegal_confirmStart hr hro (by simp; omega)
    · exact hr
    · exact hr
    · have hfull : (s.record x).ehc.val = 3 := hrF (.inl hs)
      obtain ⟨h21, h10⟩ := State.historyOrdered_full hro hfull
      exact State.recordsLegal_completeFrame hr hx ((hrfs (.inl hs)).trans_lt (h21.trans h10))
    · exact State.recordsLegal_applyPair hr hrinv hs _

/-- Only edge events emit records, and RST empties `OUT`. -/
theorem exec_keeps_records (i : Instr) :
    ∀ s t : State, s.Inv → s.recordsLegal → exec i s = .next t → t.recordsLegal := by
  induction i using forall_instr with
  | nop => rintro s _ - h ⟨⟩; exact h
  | edge ch pol x => exact fun _ _ => exec_edge_keeps_records
  | rate hz =>
    intro s t _ h ht
    obtain ⟨-, e⟩ | ⟨-, -, e⟩ | ⟨-, -, e⟩ | ⟨-, -, e⟩ := exec_rate_cases hz s <;> rw [e] at ht <;> cases ht
    all_goals exact h
  | opt a b v d =>
    intro s t _ h ht
    obtain ⟨-, e⟩ | ⟨-, e⟩ | ⟨-, -, e⟩ := exec_opt_cases a b v d s <;> rw [e] at ht <;> cases ht
    all_goals exact h
  | eoc => intro s t _ h ht; cases (exec_eoc s).symm.trans ht; exact h
  | rst => rintro s _ - - ⟨⟩; simp [State.recordsLegal, State.reset]

/-- Settles O59: the invariant orders every span, and it is itself kept. -/
theorem everyStepKeepsRecordsLegal : Obligations.EveryStepKeepsRecordsLegal := by
  intro s t hinv h ht
  have hboth : t.Inv ∧ t.recordsLegal :=
    step_keeps (P := fun s => s.Inv ∧ s.recordsLegal) (fun _ _ hs => hs)
      (fun i s t ⟨hs, hr⟩ hst => ⟨exec_keeps_inv i s t hs hst, exec_keeps_records i s t hs hr hst⟩)
      (fun _ ⟨hs, hr⟩ => ⟨State.inv_takeCondition hs .ill, hr⟩) ⟨hinv, h⟩ ht
  exact hboth.2

end Sys2Proof.Machine
end

section
/-! SUPPORT. The words the decoder reads as each event (R67), the words it reads as none (R66), and the rows of the opcode map by
the fields of R55 (R60). -/

namespace Sys2Proof

section Guards

variable {c : Prop} [Decidable c] {r : Reject} {e : Except Reject Instr}

theorem guard_eq_ok_iff {i : Instr} : (if c then .error r else e) = .ok i ↔ ¬ c ∧ e = .ok i := by
  by_cases h : c <;> simp [h]

theorem guard_eq_error_iff : (∃ r', (if c then .error r else e) = .error r') ↔ c ∨ ∃ r', e = .error r' := by
  by_cases h : c <;> simp [h]

end Guards

/-- R56 to R59, R67: every word that stands for an event, by its fields, and the event it stands for. -/
theorem decode_eq_ok_iff {w : EventWord} {i : Instr} : decode w = .ok i ↔
    (w.opField = 0#4 ∧ .nop = i) ∨
    (w.opField = 1#4 ∧ w.argField.extractLsb' 2 2 = 0#2 ∧ .edge (channelField w) (polarityField w) w.dataField = i) ∨
    (w.opField = 2#4 ∧ w.argField = 0#4 ∧ w.dataField.extractLsb' 32 32 = 0#32 ∧ .rate (hzField w) = i) ∨
    (w.opField = 3#4 ∧ w.argField = 0#4 ∧ w.dataField.extractLsb' 11 53 = 0#53 ∧ w.dataField.extractLsb' 7 1 = 0#1 ∧
      .opt (accField w) (bordField w) (varField w) (dirField w) = i) ∨
    (w.opField = 4#4 ∧ w.argField = 0#4 ∧ .eoc = i) ∨
    (w.opField = 15#4 ∧ .rst = i) := by
  simp only [decode]
  split_ifs with h0 h1 h2 h3 h4 h15
  · simp [h0]
  · simp only [decodeEdge, guard_eq_ok_iff]; simp [h1]
  · simp only [decodeRate, guard_eq_ok_iff]; simp [h2]
  · simp only [decodeOpt, guard_eq_ok_iff]; simp [h3]
  · simp only [decodeEoc, guard_eq_ok_iff]; simp [h4]
  · simp [h15]
  · simp [h0, h1, h2, h3, h4, h15]

/-- R66: the decoder reads no event from a word exactly if one of the reserved clauses holds of it. -/
theorem decode_eq_error_iff (w : EventWord) : (∃ r, decode w = .error r) ↔ w.reserved = true := by
  simp only [decode, EventWord.reserved, EventWord.reservedOp, EventWord.reservedEdge, EventWord.reservedRate,
    EventWord.reservedOpt, EventWord.reservedEoc]
  split_ifs with h0 h1 h2 h3 h4 h15
  · simp [h0]
  · simp only [decodeEdge, guard_eq_error_iff]; simp [h1]
  · simp only [decodeRate, guard_eq_error_iff]; simp [h2]
  · simp only [decodeOpt, guard_eq_error_iff]; simp [h3, or_assoc]
  · simp only [decodeEoc, guard_eq_error_iff]; simp [h4]
  · simp [h15]
  · have hop : 5 ≤ w.opField.toNat ∧ w.opField.toNat ≤ 14 := by bv_omega
    simp [hop]

/-- A `data` word with ones in the `len` bits from `start` up. -/
def fieldMask (start len : Nat) : BitVec 64 := (BitVec.allOnes len).setWidth 64 <<< start

/-- A mask of one field tests that field alone. -/
theorem and_fieldMask_eq_zero_iff {start len : Nat} (x : BitVec 64) (h : start + len ≤ 64) :
    x &&& fieldMask start len = 0#64 ↔ x.extractLsb' start len = 0#len := by
  simp only [fieldMask, BitVec.eq_of_getLsbD_eq_iff, BitVec.getLsbD_and, BitVec.getLsbD_shiftLeft, BitVec.getLsbD_setWidth,
    BitVec.getLsbD_allOnes, BitVec.getLsbD_extractLsb', BitVec.getLsbD_zero]
  constructor
  · intro hx i hi
    have hbit := hx (start + i) (by omega)
    have : start + i < 64 := by omega
    have : i < 64 := by omega
    simpa [*] using hbit
  · intro hx i hi
    by_cases hs : i < start ∨ len ≤ i - start
    · obtain hs | hs := hs <;> simp [hs]
    · have hbit := hx (i - start) (by omega)
      have : start + (i - start) = i := by omega
      have : i - start < len := by omega
      simp_all

@[simp] theorem eventWord_fields (w : EventWord) : eventWord w.opField w.argField w.dataField = w := by
  have hhigh : w.opField ++ w.argField = w.extractLsb' 64 8 :=
    BitVec.extractLsb'_append_extractLsb'_eq_extractLsb' rfl
  have hall : w.extractLsb' 64 8 ++ w.dataField = w.extractLsb' 0 72 :=
    BitVec.extractLsb'_append_extractLsb'_eq_extractLsb' rfl
  rw [eventWord, hhigh, hall, BitVec.extractLsb'_eq_self]

@[simp] theorem eventWord_inj {op op' arg arg' : BitVec 4} {data data' : BitVec 64} :
    eventWord op arg data = eventWord op' arg' data' ↔ op = op' ∧ arg = arg' ∧ data = data' := by
  constructor
  · intro h
    exact ⟨by simpa using congrArg EventWord.opField h, by simpa using congrArg EventWord.argField h,
      by simpa using congrArg EventWord.dataField h⟩
  · rintro ⟨rfl, rfl, rfl⟩
    rfl

theorem eventWord_and (op op' arg arg' : BitVec 4) (data data' : BitVec 64) :
    eventWord op arg data &&& eventWord op' arg' data' = eventWord (op &&& op') (arg &&& arg') (data &&& data') := by
  rw [eventWord, eventWord, eventWord, BitVec.and_append, BitVec.and_append]

/-- R60 on the fields of R55: the mask and the match apply field by field. -/
theorem OpcodeRow.selects_eventWord (m : String) (op arg mop marg : BitVec 4) (data mdata : BitVec 64) (w : EventWord) :
    OpcodeRow.selects ⟨m, eventWord op arg data, eventWord mop marg mdata⟩ w = true ↔
      w.opField &&& mop = op ∧ w.argField &&& marg = arg ∧ w.dataField &&& mdata = data := by
  rw [OpcodeRow.selects, beq_iff_eq, ← eventWord_inj, ← eventWord_and, eventWord_fields]

/-- R60: the opcode map with its words cut into the fields of R55. -/
theorem opcodeRows_eq : opcodeRows =
    [⟨"NOP", eventWord 0 0 0, eventWord (.allOnes 4) 0 0⟩,
     ⟨"F0", eventWord 1 0b0000 0, eventWord (.allOnes 4) (.allOnes 4) 0⟩,
     ⟨"R0", eventWord 1 0b0001 0, eventWord (.allOnes 4) (.allOnes 4) 0⟩,
     ⟨"F1", eventWord 1 0b0010 0, eventWord (.allOnes 4) (.allOnes 4) 0⟩,
     ⟨"R1", eventWord 1 0b0011 0, eventWord (.allOnes 4) (.allOnes 4) 0⟩,
     ⟨"RATE", eventWord 2 0 0, eventWord (.allOnes 4) (.allOnes 4) (fieldMask 32 32)⟩,
     ⟨"OPT", eventWord 3 0 0, eventWord (.allOnes 4) (.allOnes 4) (fieldMask 11 53 ||| fieldMask 7 1)⟩,
     ⟨"EOC", eventWord 4 0 0, eventWord (.allOnes 4) (.allOnes 4) 0⟩,
     ⟨"RST", eventWord 15 0 0, eventWord (.allOnes 4) 0 0⟩] := by
  decide

theorem mnemonic_edge_ne {m : String} (h : m ∉ ["F0", "R0", "F1", "R1"]) (ch : Channel) (pol : Polarity) (x : Sample) :
    (Instr.edge ch pol x).mnemonic ≠ m := by
  rintro rfl
  obtain e | e | e | e := edge_cases ch pol x <;> simp [e, Instr.mnemonic] at h

theorem mnemonic_edge_eq_iff (ch ch' : Channel) (pol pol' : Polarity) (x x' : Sample) :
    (Instr.edge ch pol x).mnemonic = (Instr.edge ch' pol' x').mnemonic ↔ ch = ch' ∧ pol = pol' := by
  cases ch <;> cases pol <;> cases ch' <;> cases pol' <;> simp [Instr.edge, Instr.mnemonic]

/-- R67 by the rows of R60: the mnemonic of the event that the decoder reads from a word. -/
theorem exists_decode_mnemonic_iff (w : EventWord) (m : String) : (∃ i, decode w = .ok i ∧ i.mnemonic = m) ↔
    (w.opField = 0#4 ∧ "NOP" = m) ∨
    (w.opField = 1#4 ∧ w.argField.extractLsb' 2 2 = 0#2 ∧
      (Instr.edge (channelField w) (polarityField w) w.dataField).mnemonic = m) ∨
    (w.opField = 2#4 ∧ w.argField = 0#4 ∧ w.dataField.extractLsb' 32 32 = 0#32 ∧ "RATE" = m) ∨
    (w.opField = 3#4 ∧ w.argField = 0#4 ∧ w.dataField.extractLsb' 11 53 = 0#53 ∧ w.dataField.extractLsb' 7 1 = 0#1 ∧
      "OPT" = m) ∨
    (w.opField = 4#4 ∧ w.argField = 0#4 ∧ "EOC" = m) ∨
    (w.opField = 15#4 ∧ "RST" = m) := by
  simp only [decode_eq_ok_iff, or_and_right, exists_or, and_assoc, exists_and_left, exists_eq_left', Instr.mnemonic]

/-- R56: the whole `arg` of an edge word is its channel and its polarity under two zeros. -/
theorem argField_eq_encode_edge_iff (w : EventWord) (ch : Channel) (pol : Polarity) (x : Sample) :
    w.argField = (encode (.edge ch pol x)).argField ↔
      w.argField.extractLsb' 2 2 = 0#2 ∧ channelField w = ch ∧ polarityField w = pol := by
  rw [← eventWord_fields w]
  simp only [argField_eventWord, channelField_eventWord, polarityField_eventWord]
  generalize w.argField = a
  cases ch <;> cases pol <;> simp only [encode, Instr.edge, argField_eventWord] <;> revert a <;> decide

theorem exists_decode_edge_iff (w : EventWord) (ch : Channel) (pol : Polarity) (x : Sample) :
    (∃ i, decode w = .ok i ∧ i.mnemonic = (Instr.edge ch pol x).mnemonic) ↔
      w.opField = 1#4 ∧ w.argField = (encode (.edge ch pol x)).argField := by
  have hne {m : String} (h : m ∉ ["F0", "R0", "F1", "R1"]) : m ≠ (Instr.edge ch pol x).mnemonic :=
    (mnemonic_edge_ne h ch pol x).symm
  rw [exists_decode_mnemonic_iff, argField_eq_encode_edge_iff]
  simp [mnemonic_edge_eq_iff, hne]

/-- The rows and the decoder say the same of every word: each row by its fields. -/
theorem OpcodeRow.selects_iff_decode (w : EventWord) : ∀ r ∈ opcodeRows,
    r.selects w = true ↔ ∃ i, decode w = .ok i ∧ i.mnemonic = r.mnemonic := by
  simp only [opcodeRows_eq, List.forall_mem_cons, OpcodeRow.selects_eventWord, BitVec.and_allOnes, BitVec.and_zero,
    and_true, BitVec.ofNat_eq_ofNat]
  refine ⟨?nop, (exists_decode_edge_iff w .ch0 .fall 0).symm, (exists_decode_edge_iff w .ch0 .rise 0).symm,
    (exists_decode_edge_iff w .ch1 .fall 0).symm, (exists_decode_edge_iff w .ch1 .rise 0).symm, ?rate, ?opt, ?eoc, ?rst,
    List.forall_mem_nil _⟩
  case nop => simp [exists_decode_mnemonic_iff, mnemonic_edge_ne]
  case rate => simp [exists_decode_mnemonic_iff, mnemonic_edge_ne, and_fieldMask_eq_zero_iff]
  case opt => simp [exists_decode_mnemonic_iff, mnemonic_edge_ne, and_fieldMask_eq_zero_iff, BitVec.and_or_distrib_left]
  case eoc => simp [exists_decode_mnemonic_iff, mnemonic_edge_ne]
  case rst => simp [exists_decode_mnemonic_iff, mnemonic_edge_ne]

theorem OpcodeRow.eq_of_mnemonic_eq : ∀ r ∈ opcodeRows, ∀ r' ∈ opcodeRows, r.mnemonic = r'.mnemonic → r = r' := by
  decide

theorem Instr.exists_row (i : Instr) : ∃ r ∈ opcodeRows, i.mnemonic = r.mnemonic := by
  cases i <;> simp [opcodeRows, Instr.mnemonic]

/-- Settles O2: each row selects what the decoder reads, so two rows that select one word name one event, and a word that no row
selects is one from which no event is read. -/
theorem opcodeRowsSelectWhatTheDecoderReads : Obligations.OpcodeRowsSelectWhatTheDecoderReads := by
  refine ⟨OpcodeRow.selects_iff_decode, fun w r hr r' hr' h h' => ?disjoint, fun w => ?none⟩
  case disjoint =>
    obtain ⟨i, hi, hm⟩ := (OpcodeRow.selects_iff_decode w r hr).mp h
    obtain ⟨i', hi', hm'⟩ := (OpcodeRow.selects_iff_decode w r' hr').mp h'
    obtain rfl : i = i' := Except.ok.inj (hi.symm.trans hi')
    exact OpcodeRow.eq_of_mnemonic_eq r hr r' hr' (hm.symm.trans hm')
  case none =>
    rw [← decode_eq_error_iff]
    constructor
    · intro hnone
      cases hw : decode w with
      | error e => exact ⟨e, rfl⟩
      | ok i =>
        obtain ⟨r, hr, hm⟩ := i.exists_row
        exact absurd ((OpcodeRow.selects_iff_decode w r hr).mpr ⟨i, hw, hm⟩) (by simp [hnone r hr])
    · rintro ⟨e, he⟩ r hr
      rw [Bool.eq_false_iff, ne_eq, OpcodeRow.selects_iff_decode w r hr, he]
      rintro ⟨i, ⟨⟩, -⟩

/-- Settles O1: the word of an event is not reserved, and its fields are the operands. -/
theorem decodeOfEncodeIsTheEvent : Obligations.DecodeOfEncodeIsTheEvent := decode_encode

end Sys2Proof
end

section
/-! SUPPORT. What a reserved word does (R66), the fields of a packed record (R62, R63), and the edges that `wspec` awaits (R68). -/

namespace Sys2Proof.Machine

/-- R66: a reserved word runs as a reserved event, whichever clause makes it one. -/
theorem runWord_reserved {w : EventWord} (h : w.reserved = true) (s : State) : runWord w s = reservedEvent s := by
  obtain ⟨r, hr⟩ := (decode_eq_error_iff w).mpr h
  exact runWord_error hr s

/-- Settles O3: a reserved word is one from which no event is read, and it runs as a reserved event. -/
theorem reservedWordsRaiseIll : Obligations.ReservedWordsRaiseIll := by
  refine ⟨decode_eq_error_iff, fun w s hw hs => ?raises, fun w s hw hs => ?halted, fun w hop => ?nop, fun w hop => ?rst,
    fun w hop harg => ?eoc⟩
  case raises =>
    rw [runWord_reserved hw, reservedEvent, if_neg hs]
    rfl
  case halted => rw [runWord_reserved hw, reservedEvent, if_pos hs]
  case nop => simp [decode_eq_ok_iff, hop]
  case rst => simp [decode_eq_ok_iff, hop]
  case eoc => simp [decode_eq_ok_iff, hop, harg]

theorem Category.code_injective : Function.Injective Category.code := by
  intro c c' h
  cases c <;> cases c' <;> simp [Category.code] at h ⊢

theorem Category.code_le (c : Category) : c.code.toNat ≤ 6 := by
  cases c <;> decide

section PackedFields

variable (a : Annotation)

@[simp] theorem Annotation.pack_payload : a.pack.extractLsb' 0 48 = a.payload :=
  BitVec.extractLsb'_append_eq_right

@[simp] theorem Annotation.pack_endSample : a.pack.extractLsb' 48 64 = a.endSample := by
  rw [Annotation.pack, BitVec.extractLsb'_append_eq_of_le (by decide)]
  exact BitVec.extractLsb'_append_eq_right

@[simp] theorem Annotation.pack_startSample : a.pack.extractLsb' 112 64 = a.startSample := by
  rw [Annotation.pack, BitVec.extractLsb'_append_eq_of_le (by decide), BitVec.extractLsb'_append_eq_of_le (by decide)]
  exact BitVec.extractLsb'_append_eq_right

@[simp] theorem Annotation.pack_category : a.pack.extractLsb' 176 4 = a.category.code := by
  rw [Annotation.pack, BitVec.extractLsb'_append_eq_of_le (by decide), BitVec.extractLsb'_append_eq_of_le (by decide)]
  exact BitVec.extractLsb'_append_eq_left

end PackedFields

/-- Settles O6: a field lies above the fields appended after it, and no two categories share a code. -/
theorem packedRecordsKeepTheirFields : Obligations.PackedRecordsKeepTheirFields :=
  ⟨fun a => ⟨a.pack_payload, a.pack_endSample, a.pack_startSample, a.pack_category⟩,
    fun _ _ h => Category.code_injective h, Category.code_le⟩

section AwaitedEdges

variable {s : State} (ch : Channel) (pol : Polarity)

/-- R68 in IDLE: the edges that start an attempt (R101). -/
theorem State.wspec_idle (hc : s.cfgd = true) (hs : s.st = .idle) :
    s.wspec.getLsbD (wspecBit ch pol) = startsAttempt s.var ch pol := by
  simp only [State.wspec, hc, hs]
  cases s.var <;> cases s.dirf <;> cases ch <;> cases pol <;> rfl

/-- R68 in an active segment: the edge that ends it (R101). -/
theorem State.wspec_active (hc : s.cfgd = true) (hs : s.st = .ascA ∨ s.st = .ifA) :
    s.wspec.getLsbD (wspecBit ch pol) = endsActive s.dirf s.var ch pol := by
  simp only [State.wspec, hc]
  obtain hs | hs := hs <;> simp only [hs] <;>
    cases s.var <;> cases s.dirf <;> cases ch <;> cases pol <;> rfl

/-- R68 in a passive segment: the edge that ends it (R101). -/
theorem State.wspec_passive (hc : s.cfgd = true) (hs : s.st = .ascP ∨ s.st = .ifP) :
    s.wspec.getLsbD (wspecBit ch pol) = endsPassive s.dirf s.var ch pol := by
  simp only [State.wspec, hc]
  obtain hs | hs := hs <;> simp only [hs] <;>
    cases s.var <;> cases s.dirf <;> cases ch <;> cases pol <;> rfl

/-- R68: with no rate or in HALTED no edge is awaited. -/
theorem State.wspec_none (h : s.cfgd = false ∨ s.st = .halted) : s.wspec = 0#4 := by
  simp only [State.wspec]
  split
  · rfl
  · simp_all

end AwaitedEdges

/-- Settles O30, state by state as R68 and R101 list them. -/
theorem wspecBitsAreTheQualifyingEdges : Obligations.WspecBitsAreTheQualifyingEdges := by
  intro s ch pol
  cases hc : s.cfgd with
  | false => simp [State.wspec_none (.inl hc)]
  | true =>
    rw [Bool.true_and, State.qualifies]
    cases hs : s.st with
    | idle => exact State.wspec_idle ch pol hc hs
    | ascA => exact State.wspec_active ch pol hc (.inl hs)
    | ifA => exact State.wspec_active ch pol hc (.inr hs)
    | ascP => exact State.wspec_passive ch pol hc (.inl hs)
    | ifP => exact State.wspec_passive ch pol hc (.inr hs)
    | halted => simp [State.wspec_none (.inr hs)]

end Sys2Proof.Machine
end

section
/-! SUPPORT. RATE and OPT in every state (R77, R78), the entries of the threshold table as exact numbers (R76, R83), and the
matcher's windows (R79 to R86). -/

namespace Sys2Proof.Machine

/-- R77 when halted (R120). -/
theorem exec_rate_halted {s : State} (hs : s.st = .halted) (hz : BitVec 32) : exec (.rate hz) s = .next s := by
  simp [exec, execRate, hs]

/-- R78 when halted (R120). -/
theorem exec_opt_halted {s : State} (hs : s.st = .halted) (a : BitVec 7) (b : BitOrder) (v : Variant) (d : Direction) :
    exec (.opt a b v d) s = .next s := by
  simp [exec, execOpt, hs]

/-- R77 in IDLE with a rate. -/
theorem exec_rate_accepted {s : State} (hs : s.st = .idle) {hz : BitVec 32} (h0 : hz ≠ 0) :
    exec (.rate hz) s = .next (s.acceptRate hz) := by
  rw [exec_rate_idle hs, if_neg h0]

/-- Settles O17: one case of R77 each. -/
theorem rateEventByState : Obligations.RateEventByState := by
  refine fun hz s => ⟨fun hs h0 => exec_rate_accepted hs h0, fun hs h0 => ?_, fun hs => ?_, fun hs => exec_rate_halted hs hz⟩
  · rw [exec_rate_idle hs, if_pos h0]
    rfl
  · obtain ⟨hi, hh⟩ := s.st.inAttempt_iff.mp hs
    exact exec_rate_attempt hi hh hz

/-- Settles O20: one case of R78 each. -/
theorem optEventByState : Obligations.OptEventByState := by
  refine fun a b v d s => ⟨fun hs => exec_opt_idle hs a b v d, fun hs => ?_, fun hs => exec_opt_halted hs a b v d⟩
  obtain ⟨hi, hh⟩ := s.st.inAttempt_iff.mp hs
  exact exec_opt_attempt hi hh a b v d

/-- R76, R27: a duration of at most 51 bits scales to an entry that fits 64 bits at every rate, so no entry wraps. -/
theorem toNat_scaleMicros {us : Nat} (h : us < 2 ^ 51) (hz : BitVec 32) :
    (scaleMicros us hz).toNat = us * hz.toNat / 1000000 := by
  have hprod : us * hz.toNat < 2 ^ 51 * 2 ^ 32 := Nat.mul_lt_mul'' h hz.isLt
  rw [scaleMicros, BitVec.toNat_ofNat, Nat.mod_eq_of_lt]
  omega

theorem toNat_buildThr_get (hz : BitVec 32) (sym : Symbol) :
    ((buildThr hz).get sym).toNat = twoWireMicros sym * hz.toNat / 1000000 := by
  rw [buildThr_get, toNat_scaleMicros (twoWireMicros_lt sym)]

theorem toNat_buildWlo_get (hz : BitVec 32) (sym : Symbol) :
    ((buildWlo hz).get sym).toNat = (oneWireWindow sym).lo.toNat * hz.toNat / 1000000 := by
  rw [buildWlo_get, toNat_scaleMicros (oneWireWindow sym).lo.isLt]

theorem toNat_buildWhi_get (hz : BitVec 32) (sym : Symbol) :
    ((buildWhi hz).get sym).toNat = (oneWireWindow sym).hi.toNat * hz.toNat / 1000000 := by
  rw [buildWhi_get, toNat_scaleMicros (oneWireWindow sym).hi.isLt]

/-- Settles O18: the 64 bits of an entry hold the floor whole. -/
theorem tableEntriesAreExactFloors : Obligations.TableEntriesAreExactFloors := fun hz sym =>
  ⟨toNat_buildThr_get hz sym, toNat_buildWlo_get hz sym, toNat_buildWhi_get hz sym⟩

/-- Settles O19: doubling under the floor adds at most one. -/
theorem thresholdsScaleWithTheRate : Obligations.ThresholdsScaleWithTheRate := by
  intro r r2 sym _ hdouble
  have hprod : twoWireMicros sym * r2.toNat = 2 * (twoWireMicros sym * r.toNat) := by
    rw [hdouble, Nat.mul_left_comm]
  rw [toNat_buildThr_get, toNat_buildThr_get, hprod]
  omega

/-- Settles O23: the matcher by its two comparisons. -/
theorem matcherIsStrictInBothVariants : Obligations.MatcherIsStrictInBothVariants :=
  ⟨near_eq_true, inwin_eq_true, fun _ sym d =>
    ⟨fun hv => State.matchesSymbol_twoWire hv sym d, fun hv => State.matchesSymbol_oneWire hv sym d⟩⟩

/-- R82 (e) at its core: R79's two bounds are one bound on the distance from the nominal. -/
theorem near_iff_abs_lt (d t a : Int) : near d t a = true ↔ |100 * (d - t)| < t * a := by
  rw [near_eq_true, abs_lt, mul_sub, mul_add]
  constructor <;> rintro ⟨hlo, hhi⟩ <;> constructor <;> linarith

theorem near_eq_false_iff (d t a : Int) : near d t a = false ↔ t * a ≤ |100 * (d - t)| := by
  rw [← Bool.not_eq_true, near_iff_abs_lt, not_lt]

/-- R79 on natural numbers, with the lower bound's subtraction moved to the other side. -/
theorem near_natCast_iff (d t a : Nat) :
    near d t a = true ↔ t * 100 < 100 * d + t * a ∧ 100 * d < t * 100 + t * a := by
  rw [near_eq_true]
  zify
  rw [mul_sub, mul_add, sub_lt_iff_lt_add]

/-- R82 (e) above the nominal. -/
theorem near_add_iff (e t a : Nat) : near ((t : Int) + e) t a = true ↔ 100 * e < t * a := by
  rw [near_iff_abs_lt, add_sub_cancel_left, abs_of_nonneg (by positivity)]
  norm_cast

/-- R82 (e): the window is symmetric about the nominal. -/
theorem near_sub_eq_near_add (e t a : Int) : near (t - e) t a = near (t + e) t a := by
  rw [Bool.eq_iff_iff, near_iff_abs_lt, near_iff_abs_lt, ← abs_neg]
  ring_nf

/-- Settles O24, clause by clause. -/
theorem nearDegenerateCases : Obligations.NearDegenerateCases := by
  refine ⟨fun d a => ?zeroEntry, fun d t => ?zeroAccuracy, fun t a => ?nominal, fun d t a h => ?upper,
    fun d t a ha h => ?lower, fun e t a _ => ⟨near_sub_eq_near_add e t a, near_add_iff e t a⟩,
    fun d t a ha ht => ?above, fun d lo hi h => ?window⟩
  case zeroEntry => simp [near_eq_false_iff]
  case zeroAccuracy => simp [near_eq_false_iff]
  case nominal => simpa [CanonicallyOrderedAdd.mul_pos, Order.one_le_iff_pos] using near_add_iff 0 t a
  case upper =>
    rw [← Bool.not_eq_true, near_natCast_iff, h, mul_add]
    omega
  case lower =>
    have hsum : 100 * d + t * a = t * 100 := by rw [h, ← mul_add, Nat.sub_add_cancel ha]
    rw [← Bool.not_eq_true, near_natCast_iff, hsum]
    omega
  case above =>
    have hbelow : t * 100 < t * a := Nat.mul_lt_mul_of_pos_left ha ht
    rw [near_natCast_iff, mul_add]
    omega
  case window =>
    rw [← Bool.not_eq_true, inwin_eq_true]
    omega

/-- R85: the least and the greatest integer that match. -/
theorem near_iff_mem_interval {t a : Nat} (ha : a ≤ 100) (d : Nat) :
    near d t a = true ↔ t * (100 - a) / 100 + 1 ≤ d ∧ d ≤ (t * (100 + a) + 99) / 100 - 1 := by
  have hlo : t * (100 - a) + t * a = t * 100 := by rw [← mul_add, Nat.sub_add_cancel ha]
  rw [near_natCast_iff, mul_add]
  omega

/-- Settles O25: the table is the interval of the rule at its five entries. -/
theorem nearHoldsOnAnIntervalOfIntegers : Obligations.NearHoldsOnAnIntervalOfIntegers :=
  ⟨fun d _ _ _ _ ha => near_iff_mem_interval ha d, fun d =>
    ⟨near_iff_mem_interval (t := 12000) (a := 5) (by decide) d,
     near_iff_mem_interval (t := 1270) (a := 5) (by decide) d,
     near_iff_mem_interval (t := 3000) (a := 5) (by decide) d,
     near_iff_mem_interval (t := 1000) (a := 5) (by decide) d,
     near_iff_mem_interval (t := 19000) (a := 5) (by decide) d⟩⟩

/-- R86: the windows of the zero-bit and the one-bit first meet at 51, in 1500. -/
theorem zeroBit_oneBit_disjoint_iff (a : Nat) :
    (∀ d : Nat, ¬ (near d 1000 a = true ∧ near d 3000 a = true)) ↔ a ≤ 50 := by
  simp only [near_eq_true]
  constructor
  · intro h
    have := h 1500
    omega
  · omega

/-- R86: the windows of the one-bit and the end pulse first meet at 73, in 5187. -/
theorem oneBit_endPulse_disjoint_iff (a : Nat) :
    (∀ d : Nat, ¬ (near d 3000 a = true ∧ near d 19000 a = true)) ↔ a ≤ 72 := by
  simp only [near_eq_true]
  constructor
  · intro h
    have := h 5187
    omega
  · omega

/-- R86: up to 90 the windows of the zero-bit and the end pulse do not meet. -/
theorem zeroBit_endPulse_disjoint {a : Nat} (ha : a ≤ 90) (d : Nat) :
    ¬ (near d 1000 a = true ∧ near d 19000 a = true) := by
  simp only [near_eq_true]
  omega

/-- Settles O26: of the three pairs, the zero-bit and the one-bit meet first. -/
theorem inFrameWindowsDisjointUpToFifty : Obligations.InFrameWindowsDisjointUpToFifty := by
  refine fun a _ => ⟨⟨fun h => (zeroBit_oneBit_disjoint_iff a).mp fun d => (h d).1, fun ha d => ⟨?_, ?_, ?_⟩⟩,
    oneBit_endPulse_disjoint_iff a⟩
  · exact (zeroBit_oneBit_disjoint_iff a).mpr ha d
  · exact zeroBit_endPulse_disjoint (by omega) d
  · exact (oneBit_endPulse_disjoint_iff a).mpr (by omega) d

/-- C5: the one-wire start window in samples at 1 MHz. -/
theorem buildWindow_sa_oneMegahertz :
    ((buildWlo 1000000).get .sa).toNat = 11500 ∧ ((buildWhi 1000000).get .sa).toNat = 12500 := by
  rw [toNat_buildWlo_get, toNat_buildWhi_get]
  decide

/-- Settles O28: RATE 1000000 leaves `VAR` and builds the window 11500 to 12500, open at both ends. -/
theorem oneWireStartWindowAtOneMegahertz : Obligations.OneWireStartWindowAtOneMegahertz := by
  intro s t d hs hv h
  rw [exec_rate_accepted hs (by decide)] at h
  cases h
  obtain ⟨hlo, hhi⟩ := buildWindow_sa_oneMegahertz
  rw [State.matchesSymbol_oneWire (by simp [hv]), State.acceptRate_wlo, State.acceptRate_whi, hlo, hhi, inwin_eq_true]
  omega

end Sys2Proof.Machine
end

section
/-! SUPPORT. When the two intervals of the edge tracker hold no value (U2, entry 5), beside the laws of when they hold one. -/

namespace Sys2Proof.Machine

theorem State.mostRecentInterval_eq_none {s : State} : s.mostRecentInterval = none ↔ s.ehc.val < 2 := by
  simp [Option.eq_none_iff_forall_ne_some, State.mostRecentInterval_eq_some]

theorem State.priorInterval_one_eq_none {s : State} : s.priorInterval 1 = none ↔ s.ehc.val ≠ 3 := by
  simp [Option.eq_none_iff_forall_ne_some, State.priorInterval_one_eq_some]

/-- Settles O29: the two updates and distance 0 by definition, each interval by when it holds a value and when it does not. -/
theorem historyPrimitives : Obligations.HistoryPrimitives := by
  refine fun s x => ⟨rfl, rfl, fun hpair => ?recent, fun hfull => ?prior, rfl, fun hfew => ?noRecent,
    fun hfew => ?noPrior⟩
  case recent => exact State.mostRecentInterval_of_le hpair
  case prior => exact State.priorInterval_one_of_full hfull
  case noRecent => exact State.mostRecentInterval_eq_none.mpr hfew
  case noPrior => exact State.priorInterval_one_eq_none.mpr hfew.ne

end Sys2Proof.Machine
end

section
/-! SUPPORT. An attempt moved by `k` samples (R128): every test of an edge event is on a difference or an order of indices, and
every update carries the indices it copies along. -/

namespace Sys2Proof.Machine

/-- R8: a difference does not see a move that wraps neither index. -/
theorem sampleDistance_add {a b k : Sample} (ha : a.toNat + k.toNat < 2 ^ 64) (hb : b.toNat + k.toNat < 2 ^ 64) :
    sampleDistance (a + k) (b + k) = sampleDistance a b := by
  simp only [sampleDistance, BitVec.toNat_add_of_lt ha, BitVec.toNat_add_of_lt hb]
  omega

section Shift

variable (k : Sample) (s : State)

theorem State.shift_emit (a : Annotation) : (s.emit a).shift k = (s.shift k).emit (a.shift k) := by
  simp [State.shift, State.emit]

theorem State.shift_confirmStart : s.confirmStart.shift k = (s.shift k).confirmStart := by
  simp [State.confirmStart, State.shift, State.emit, Annotation.shift]

theorem State.shift_completeFrame (es ee : Sample) :
    (s.completeFrame es ee).shift k = (s.shift k).completeFrame (es + k) (ee + k) := by
  change (((s.emit _).emit _).shift k).goto .idle = _
  rw [State.shift_emit, State.shift_emit]
  rfl

theorem State.shift_takeCondition (c : Condition) : (s.takeCondition c).shift k = (s.shift k).takeCondition c := by
  cases c with
  | symbolMismatch => exact congrArg (State.goto · .idle) (State.shift_emit k s s.errorRecord)
  | ovl => exact congrArg (State.goto · .idle) (State.shift_emit k (s.raiseFlag .ovl) s.errorRecord)
  | configurationError | spuriousStart | truncatedCapture | seq | ill => rfl

theorem State.shift_acceptBit (b : Bool) : (s.acceptBit b).shift k = (s.shift k).acceptBit b := by
  by_cases h : s.bi.val < 40
  · rw [State.acceptBit_of_lt h, State.acceptBit_of_lt (s := s.shift k) h]
    simp [State.shift, State.emit, Annotation.shift]
  · rw [State.acceptBit_of_full h, State.acceptBit_of_full (s := s.shift k) h]
    exact State.shift_takeCondition k s .ovl

theorem State.shift_applyPair (c : PairClass) : (s.applyPair c).shift k = (s.shift k).applyPair c := by
  cases c with
  | oneBit => exact State.shift_acceptBit k s true
  | zeroBit => exact State.shift_acceptBit k s false
  | endPulse => exact State.shift_completeFrame k s _ _
  | mismatch => exact State.shift_takeCondition k s .symbolMismatch

/-- Every update moves along with the indices; none needs them not to wrap. -/
theorem keptByUpdates_shift (x : Sample) :
    KeptByUpdates (fun a b => a.shift k = id b) s (s.shift k) x (x + k) where
  same := rfl
  start := fun _ _ => rfl
  seq := rfl
  toAscP := fun _ => rfl
  toIfP := fun _ => rfl
  spurious := rfl
  confirm := fun _ => State.shift_confirmStart k (s.record x)
  completeNow := fun _ _ => State.shift_completeFrame k (s.record x) _ _
  pair := fun _ _ c => State.shift_applyPair k (s.record x) c

variable {k s}

/-- The order and the differences of the indices survive the move, since none of them wraps. -/
theorem sameTests_shift {x : Sample} (hs : s.shiftable k) (hx : x.toNat + k.toNat < 2 ^ 64) :
    SameTests s (s.shift k) x (x + k) := by
  obtain ⟨ht0, ht1, -⟩ := hs
  have hlater : (x + k).toNat ≤ (s.t0 + k).toNat ↔ x.toNat ≤ s.t0.toNat := by
    rw [BitVec.toNat_add_of_lt hx, BitVec.toNat_add_of_lt ht0, Nat.add_le_add_iff_right]
  exact
    { st := rfl
      cfgd := rfl
      var := rfl
      dirf := rfl
      ehc := rfl
      bi := rfl
      matcher := fun _ _ _ => rfl
      later := fun _ => hlater
      current := fun _ => sampleDistance_add hx ht0
      prior := fun _ => sampleDistance_add ht0 ht1 }

end Shift

/-- Settles O54: the tests agree on the moved attempt, and each update moves with it. -/
theorem edgeEventsAreTranslationInvariant : Obligations.EdgeEventsAreTranslationInvariant := by
  intro s ch pol x k hs hx
  rw [exec_edge, exec_edge, ← mapNext_id (State.onEdge _ _ _ _)]
  exact (Related.mapNext_eq (onEdge_related (sameTests_shift hs hx) (keptByUpdates_shift k s x) ch pol)).symm

end Sys2Proof.Machine
end

section
/-! SUPPORT. The session events and HALTED (R120 to R122), the edges that are ignored (R119, R125, R126), and the edge that starts
an attempt (R103). -/

namespace Sys2Proof.Machine

/-- R120: the first test of every event but RST is whether the block is halted. -/
theorem exec_halted {s : State} (hs : s.st = .halted) {i : Instr} (hi : i ≠ .rst) : exec i s = .next s := by
  induction i using forall_instr with
  | nop => exact exec_nop s
  | edge ch pol x => rw [exec_edge, State.onEdge_ignored (.inl hs)]
  | rate hz => exact exec_rate_halted hs hz
  | opt a b v d => exact exec_opt_halted hs a b v d
  | eoc =>
    have hself : s.goto .halted = s := by rw [← hs]; rfl
    rw [exec_eoc, hself]
  | rst => exact absurd rfl hi

/-- Settles O16, by induction on the trace. -/
theorem haltedBlockStaysHalted : Obligations.HaltedBlockStaysHalted := by
  intro is s hs
  induction is with
  | nil => exact fun _ => rfl
  | cons i is ih =>
    intro hrst
    rw [List.mem_cons, not_or] at hrst
    obtain ⟨hi, his⟩ := hrst
    rw [runEvents, exec_halted hs (Ne.symm hi)]
    exact ih his

/-- Settles O31: a clear bit of `wspec` is a missing rate or an edge that does not qualify (R68). -/
theorem nonQualifyingEdgesAreIgnored : Obligations.NonQualifyingEdgesAreIgnored := by
  intro s ch pol x h
  rw [wspecBitsAreTheQualifyingEdges, Bool.and_eq_false_iff] at h
  rw [exec_edge, State.onEdge_ignored (.inr h)]

/-- Settles O13: NOP answers the state it finds. -/
theorem nopChangesNothing : Obligations.NopChangesNothing := exec_nop

/-- Settles O14: in every state EOC is the move to HALTED. -/
theorem eocHaltsAndChangesNothingElse : Obligations.EocHaltsAndChangesNothingElse := exec_eoc

/-- Settles O15: a word runs as an event other than RST, or as a reserved one, which looks at HALTED itself. -/
theorem haltedIgnoresAllButRst : Obligations.HaltedIgnoresAllButRst := by
  refine ⟨fun i s hs hi => exec_halted hs hi, fun w s hs hw => ?_⟩
  cases hd : decode w with
  | ok i =>
    rw [runWord_ok hd]
    exact exec_halted hs fun hi => hw (hi ▸ hd)
  | error r => rw [runWord_error hd, reservedEvent, if_pos hs]

/-- R125, R126: no state of a one-wire block awaits an edge of channel 1. -/
theorem State.qualifies_ch1_oneWire {s : State} (hv : s.var = .oneWire) (pol : Polarity) :
    s.qualifies .ch1 pol = false := by
  simp only [State.qualifies, hv]
  cases s.st with
  | idle => rfl
  | ascA | ifA => cases s.dirf <;> rfl
  | ascP | ifP => cases s.dirf <;> rfl
  | halted => rfl

/-- Settles O32: neither edge of channel 1 qualifies. -/
theorem channelOneIsIgnoredInOneWire : Obligations.ChannelOneIsIgnoredInOneWire := fun _ _ hv =>
  ⟨State.onEdge_ignored (.inr (.inr (State.qualifies_ch1_oneWire hv .rise))),
    State.onEdge_ignored (.inr (.inr (State.qualifies_ch1_oneWire hv .fall)))⟩

/-- R101, R103: the edges that start an attempt. -/
theorem startsAttempt_iff (v : Variant) (ch : Channel) (pol : Polarity) :
    startsAttempt v ch pol = true ↔ (ch = .ch0 ∧ pol = .rise) ∨ (v = .twoWire ∧ ch = .ch1 ∧ pol = .fall) := by
  cases v <;> cases ch <;> cases pol <;> simp [startsAttempt]

@[simp] theorem attemptDirection_ch0 (v : Variant) : attemptDirection v .ch0 = .tx := by cases v <;> rfl

@[simp] theorem attemptDirection_twoWire_ch1 : attemptDirection .twoWire .ch1 = .rx := rfl

/-- R101: an edge that could begin an active segment ends none, in either direction. -/
theorem endsActive_leading (d : Direction) (v : Variant) :
    endsActive d v .ch0 .rise = false ∧ endsActive d v .ch1 .fall = false := by
  cases d <;> cases v <;> decide

theorem State.qualifies_idle {s : State} (hs : s.st = .idle) (ch : Channel) (pol : Polarity) :
    s.qualifies ch pol = startsAttempt s.var ch pol := by
  simp only [State.qualifies, hs]

/-- R103: the attempt just begun takes neither of the edges that could have begun it. -/
theorem State.onEdge_startAttempt_leading (s : State) (ch : Channel) (x : Sample) :
    (s.startAttempt ch x).onEdge .ch0 .rise x = .next (s.startAttempt ch x) ∧
      (s.startAttempt ch x).onEdge .ch1 .fall x = .next (s.startAttempt ch x) := by
  obtain ⟨hrise, hfall⟩ := endsActive_leading (attemptDirection s.var ch) s.var
  exact ⟨State.onEdge_ignored (.inr (.inr hrise)), State.onEdge_ignored (.inr (.inr hfall))⟩

/-- Settles O33: the attempt holds one entry, and in `ASC_A` no edge that begins an active segment qualifies. -/
theorem edgeInIdleStartsAnAttempt : Obligations.EdgeInIdleStartsAnAttempt := by
  intro s x hs hc
  constructor
  · have hq : s.qualifies .ch0 .rise = true := by
      rw [State.qualifies_idle hs, startsAttempt_iff]
      exact .inl ⟨rfl, rfl⟩
    refine ⟨s.t0, s.t1, s.startAttempt .ch0 x, State.onEdge_idle hs hc hq, ?_,
      (s.onEdge_startAttempt_leading .ch0 x).2⟩
    rw [← attemptDirection_ch0 s.var]
    rfl
  · intro hv
    have hq : s.qualifies .ch1 .fall = true := by
      rw [State.qualifies_idle hs, startsAttempt_iff]
      exact .inr ⟨hv, rfl, rfl⟩
    refine ⟨s.t0, s.t1, s.startAttempt .ch1 x, State.onEdge_idle hs hc hq, ?_,
      (s.onEdge_startAttempt_leading .ch1 x).1⟩
    rw [← attemptDirection_twoWire_ch1, ← hv]
    rfl

end Sys2Proof.Machine
end

section
/-! SUPPORT. The edges of an attempt (R102, R104 to R118): what the awaited edge runs, and the test each pair passes. -/

namespace Sys2Proof.Machine

/-- Settles O41: the prelude stops before the edge is recorded. -/
theorem nonIncreasingSampleRaisesSeq : Obligations.NonIncreasingSampleRaisesSeq := by
  intro s ch pol x hp hc hq he hx
  rw [exec_edge_attempt hp hc hq, State.prelude_notLater he hx]
  rfl

/-- R110: the one-bit test on a pair of lengths `p` and `c`. -/
abbrev State.passesOne (s : State) (p c : Int) : Prop := s.matchesSymbol .oa p = true ∧ s.matchesSymbol .op c = true

/-- R111: the zero-bit test on a pair of lengths `p` and `c`. -/
abbrev State.passesZero (s : State) (p c : Int) : Prop := s.matchesSymbol .za p = true ∧ s.matchesSymbol .zp c = true

/-- R115: the end-pulse test on an active segment of length `p`. -/
abbrev State.passesEnd (s : State) (p : Int) : Prop := s.var = .twoWire ∧ s.matchesSymbol .ep p = true

/-- R109: the pair's class by its tests, in their order. -/
theorem State.classifyPair_eq (s : State) (p c : Int) :
    s.classifyPair p c =
      if s.passesOne p c then .oneBit else if s.passesZero p c then .zeroBit else if s.passesEnd p then .endPulse
      else .mismatch := by
  simp only [State.classifyPair, State.passesOne, State.passesZero, State.passesEnd, Bool.and_eq_true, beq_iff_eq]

section Awaited

variable {s : State} {p : Phase} {n : Nat} {x : Sample}

/-- R102: an edge the attempt awaits is recorded, and the rule of the state runs. -/
theorem exec_awaitedEdge {ch : Channel} {pol : Polarity} (h : s.awaits p n x) (hp : p.inAttempt) (hn : 1 ≤ n)
    (hq : s.qualifies ch pol = true) : exec (.edge ch pol x) s = (s.record x).stateRule := by
  obtain ⟨rfl, hc, -, he, hx⟩ := h
  rw [exec_edge_attempt hp hc hq, State.prelude_later (hn.trans he) hx]

/-- R101: in an active segment the trailing edge of the attempt's direction is the awaited one. -/
theorem exec_trailingEdge (h : s.awaits p n x) (hp : p = .ascA ∨ p = .ifA) (hn : 1 ≤ n) :
    exec (.trailingEdge s.dirf x) s = (s.record x).stateRule := by
  have ⟨hs, _, hdir, _, _⟩ := h
  have hatt : p.inAttempt := hp.elim .inl fun hp => .inr (.inr (.inl hp))
  have hqual : ∀ ch pol, s.qualifies ch pol = endsActive s.dirf s.var ch pol := by
    intro ch pol
    obtain rfl | rfl := hp <;> simp only [State.qualifies, hs]
  cases hd : s.dirf with
  | tx => exact exec_awaitedEdge (ch := .ch0) (pol := .fall) h hatt hn (by rw [hqual, hd]; rfl)
  | rx => exact exec_awaitedEdge (ch := .ch1) (pol := .rise) h hatt hn (by rw [hqual, hd, hdir hd]; rfl)

/-- R101: in a passive segment the leading edge of the attempt's direction is the awaited one. -/
theorem exec_leadingEdge (h : s.awaits p n x) (hp : p = .ascP ∨ p = .ifP) (hn : 1 ≤ n) :
    exec (.leadingEdge s.dirf x) s = (s.record x).stateRule := by
  have ⟨hs, _, hdir, _, _⟩ := h
  have hatt : p.inAttempt := hp.elim (fun hp => .inr (.inl hp)) fun hp => .inr (.inr (.inr hp))
  have hqual : ∀ ch pol, s.qualifies ch pol = endsPassive s.dirf s.var ch pol := by
    intro ch pol
    obtain rfl | rfl := hp <;> simp only [State.qualifies, hs]
  cases hd : s.dirf with
  | tx => exact exec_awaitedEdge (ch := .ch0) (pol := .rise) h hatt hn (by rw [hqual, hd]; rfl)
  | rx => exact exec_awaitedEdge (ch := .ch1) (pol := .fall) h hatt hn (by rw [hqual, hd, hdir hd]; rfl)

/-- The leading edge of the attempt's direction, as the statements write it. -/
theorem eq_leadingEdge {i : Instr} {d : Direction} (h : (d = .tx ∧ i = .r0 x) ∨ (d = .rx ∧ i = .f1 x)) :
    i = .leadingEdge d x := by
  obtain ⟨rfl, rfl⟩ | ⟨rfl, rfl⟩ := h <;> rfl

/-- R104 on the awaited edge. -/
theorem exec_ascA (h : s.awaits .ascA 1 x) :
    exec (.trailingEdge s.dirf x) s = .next ((s.record x).goto
      (if s.matchesSymbol .sa (sampleDistance x s.t0) = true then .ascP else .idle)) := by
  have ⟨hs, _, _, he, _⟩ := h
  have h2 : 2 ≤ (s.record x).ehc.val := by rw [State.record_ehc, countUp_val]; omega
  rw [exec_trailingEdge h (.inl rfl) le_rfl, State.stateRule, State.record_st, hs, State.startActiveEnds_of_le h2,
    State.matchesSymbol_record]
  exact congrArg Host.Outcome.next (apply_ite (State.goto _) _ _ _).symm

/-- R105, R106 on the awaited edge. -/
theorem exec_ascP (h : s.awaits .ascP 2 x) :
    exec (.leadingEdge s.dirf x) s = .next (if s.matchesSymbol .sp (sampleDistance x s.t0) = true then
      (s.record x).confirmStart else (s.record x).goto .idle) := by
  have ⟨hs, _, _, he, _⟩ := h
  have h3 : (s.record x).ehc.val = 3 := by rw [State.record_ehc, countUp_val]; omega
  rw [exec_leadingEdge h (.inl rfl) (by omega), State.stateRule, State.record_st, hs, State.startPassiveEnds_of_full h3,
    State.matchesSymbol_record]
  rfl

/-- R107, R108 on the awaited edge. -/
theorem exec_ifA (h : s.awaits .ifA 3 x) : exec (.trailingEdge s.dirf x) s = (s.record x).activeEnds := by
  have ⟨hs, _⟩ := h
  rw [exec_trailingEdge h (.inr rfl) (by omega), State.stateRule, State.record_st, hs]

/-- R109 on the awaited edge. -/
theorem exec_ifP (h : s.awaits .ifP 3 x) :
    exec (.leadingEdge s.dirf x) s =
      .next ((s.record x).applyPair (if s.pairIsOne x then .oneBit else if s.pairIsZero x then .zeroBit
        else if s.pairIsEnd then .endPulse else .mismatch)) := by
  have ⟨hs, _, _, he, _⟩ := h
  have h3 : (s.record x).ehc.val = 3 := by rw [State.record_ehc, countUp_val]; omega
  rw [exec_leadingEdge h (.inr rfl) (by omega), State.stateRule, State.record_st, hs, State.passiveEnds_of_full h3,
    State.classifyPair_record, State.classifyPair_eq]
  rfl

end Awaited

/-- Settles O34, from the one rule for both directions. -/
theorem startActiveEndsInAscA : Obligations.StartActiveEndsInAscA := by
  intro s x h
  have hexec := exec_ascA h
  refine ⟨fun hd => ?_, fun hd => ?_⟩
  · rw [hd] at hexec
    exact hexec
  · rw [hd] at hexec
    exact hexec

/-- Settles O35, by whether the start-passive duration matches. -/
theorem startPassiveEndsInAscP : Obligations.StartPassiveEndsInAscP := by
  intro s x i h hi
  rw [eq_leadingEdge hi, exec_ascP h]
  refine ⟨fun hm => congrArg Host.Outcome.next ?_, fun hm => congrArg Host.Outcome.next ?_⟩
  · exact if_pos hm
  · exact if_neg (ne_true_of_eq_false hm)

/-- R117: the two records of a completed frame, in order. -/
theorem State.completeFrame_eq (s : State) (es ee : Sample) :
    s.completeFrame es ee = { s with st := .idle, out := s.out ++ [⟨es, ee, .endPulse, 0⟩, s.frameRecord ee] } := by
  simp only [State.completeFrame, State.emit, State.goto, List.append_assoc]
  rfl

/-- Settles O36: a one-wire attempt is a transmit one (R16), so its active segment ends with F0. -/
theorem activeSegmentEndsInIfA : Obligations.ActiveSegmentEndsInIfA := by
  intro s x h
  have ⟨_, _, hdir, he, _⟩ := h
  have hexec := exec_ifA h
  refine ⟨fun hv hd => ?_, fun hv hd => ?_, fun hv => ?_⟩
  · rw [hd] at hexec
    exact hexec.trans (State.activeEnds_twoWire hv)
  · rw [hd] at hexec
    exact hexec.trans (State.activeEnds_twoWire hv)
  · have hd : s.dirf = .tx := by
      cases hd : s.dirf with
      | tx => rfl
      | rx => exact absurd (hv.symm.trans (hdir hd)) nofun
    have h2 : 2 ≤ (s.record x).ehc.val := by rw [State.record_ehc, countUp_val]; omega
    rw [hd] at hexec
    refine (hexec.trans (State.activeEnds_oneWire hv h2)).trans ?_
    simp only [State.matchesSymbol_record, State.completeFrame_eq, Bool.and_eq_true, Bool.not_eq_true']
    rfl

/-- R64: the index, zero-extended. -/
theorem indexPayload_eq (i : BitIndex) : indexPayload i = BitVec.ofNat 48 i.val := by
  have hval : (indexPayload i).toNat = i.val := by
    rw [indexPayload, BitVec.toNat_append]
    simpa using (by omega : i.val < 64)
  rw [← hval, BitVec.ofNat_toNat, BitVec.setWidth_eq]

/-- R112, R113: PARITY at 10 and 26 of a two-wire frame. -/
theorem bitCategory_eq (v : Variant) (i : BitIndex) :
    bitCategory v i = if v = .twoWire ∧ (i.val = 10 ∨ i.val = 26) then .parity else .bit := by
  cases v with
  | oneWire => simp [bitCategory]
  | twoWire =>
    simp only [bitCategory, true_and]
    rfl

/-- R112, R113 on the awaited edge: a pair that is a bit of value `b`. -/
theorem exec_ifP_bit {s : State} {x : Sample} {b : Bool} (h : s.awaits .ifP 3 x)
    (hbit : (b = true ∧ s.pairIsOne x) ∨ (b = false ∧ ¬ s.pairIsOne x ∧ s.pairIsZero x)) :
    exec (.leadingEdge s.dirf x) s = .next ((s.record x).acceptBit b) := by
  rw [exec_ifP h]
  obtain ⟨rfl, hone⟩ | ⟨rfl, hone, hzero⟩ := hbit
  · rw [if_pos hone, State.applyPair]
  · rw [if_neg hone, if_pos hzero, State.applyPair]

/-- Settles O37: the index has room for the bit. -/
theorem bitPairIsAccepted : Obligations.BitPairIsAccepted := by
  intro s x i b n h hi hbit hn
  have hlt : (s.record x).bi.val < 40 := by
    have hbound : n.val < 41 := n.isLt
    rw [State.record_bi]
    omega
  obtain rfl : n = ⟨s.bi.val + 1, Nat.succ_lt_succ hlt⟩ := Fin.ext hn
  rw [eq_leadingEdge hi, exec_ifP_bit h hbit, State.acceptBit_of_lt hlt, indexPayload_eq, bitCategory_eq]
  rfl

/-- Settles O38: whichever bit the pair is, there is no room for it. -/
theorem fortyFirstBitRaisesOvl : Obligations.FortyFirstBitRaisesOvl := by
  intro s x i h hi hbit hfull
  have hbit' : ∃ b, (b = true ∧ s.pairIsOne x) ∨ (b = false ∧ ¬ s.pairIsOne x ∧ s.pairIsZero x) := by
    by_cases hone : s.pairIsOne x
    · exact ⟨true, .inl ⟨rfl, hone⟩⟩
    · exact ⟨false, .inr ⟨rfl, hone, hbit.resolve_left hone⟩⟩
  obtain ⟨b, hb⟩ := hbit'
  have hroom : ¬ (s.record x).bi.val < 40 := by rw [State.record_bi]; omega
  rw [eq_leadingEdge hi, exec_ifP_bit h hb, State.acceptBit_of_full hroom]
  rfl

/-- Settles O39: of the tests the end pulse's is the first to pass. -/
theorem twoWireEndPulseCompletesTheFrame : Obligations.TwoWireEndPulseCompletesTheFrame := by
  intro s x i h hi hone hzero hend
  rw [eq_leadingEdge hi, exec_ifP h, if_neg hone, if_neg hzero, if_pos hend, State.applyPair, State.completeFrame_eq]
  rfl

/-- Settles O40: no test passes. -/
theorem mismatchedPairIsAFrameError : Obligations.MismatchedPairIsAFrameError := by
  intro s x i h hi hone hzero hend
  rw [eq_leadingEdge hi, exec_ifP h, if_neg hone, if_neg hzero, if_neg hend]
  rfl

end Sys2Proof.Machine
end

section
/-! SUPPORT. The classes of a two-wire pair at 1 MHz and 5 percent (R109, R127), from the intervals of R85. -/

namespace Sys2Proof.Machine

/-- C5: the two-wire thresholds of a frame in samples at 1 MHz. -/
theorem buildThr_oneMegahertz :
    ((buildThr 1000000).get .oa).toNat = 3000 ∧ ((buildThr 1000000).get .op).toNat = 1000 ∧
      ((buildThr 1000000).get .za).toNat = 1000 ∧ ((buildThr 1000000).get .zp).toNat = 1000 ∧
      ((buildThr 1000000).get .ep).toNat = 19000 := by
  simp only [toNat_buildThr_get]
  decide

section OneMegahertz

variable {s : State} (hv : s.var = .twoWire) (hthr : s.thr = buildThr 1000000) (hacc : s.acc = 5)

include hv hthr hacc

/-- R81 with R76's table at 1 MHz and 5 percent. -/
theorem State.matchesSymbol_oneMegahertz (sym : Symbol) (d : Int) :
    s.matchesSymbol sym d = near d ((buildThr 1000000).get sym).toNat 5 := by
  rw [State.matchesSymbol_twoWire hv, hthr, hacc]
  rfl

/-- R85, R127: the three tests by the interval of each symbol. -/
theorem State.passes_oneMegahertz (a p : Nat) :
    (s.passesOne a p ↔ (2851 ≤ a ∧ a ≤ 3149) ∧ (951 ≤ p ∧ p ≤ 1049)) ∧
      (s.passesZero a p ↔ (951 ≤ a ∧ a ≤ 1049) ∧ (951 ≤ p ∧ p ≤ 1049)) ∧
      (s.passesEnd a ↔ 18051 ≤ a ∧ a ≤ 19949) := by
  obtain ⟨hoa, hop, hza, hzp, hep⟩ := buildThr_oneMegahertz
  obtain ⟨-, htable⟩ := nearHoldsOnAnIntervalOfIntegers
  obtain ⟨-, -, hone, hshort, hend⟩ := htable a
  obtain ⟨-, -, -, hpassive, -⟩ := htable p
  simp only [State.passesOne, State.passesZero, State.passesEnd, State.matchesSymbol_oneMegahertz hv hthr hacc,
    hoa, hop, hza, hzp, hep, hv, true_and, Nat.cast_ofNat]
  exact ⟨and_congr hone hpassive, and_congr hshort hpassive, hend⟩

end OneMegahertz

/-- Settles O27: the active windows of the three symbols do not meet, so the order of the tests does not show. -/
theorem twoWirePairClassesAtOneMegahertz : Obligations.TwoWirePairClassesAtOneMegahertz := by
  intro s a p hv hthr hacc _ _
  obtain ⟨hone, hzero, hend⟩ := State.passes_oneMegahertz hv hthr hacc a p
  rw [State.classifyPair_eq]
  simp only [hone, hzero, hend]
  split_ifs <;> simp only [true_iff, false_iff] <;> omega

end Sys2Proof.Machine
end

section
/-! SUPPORT. What an event does to the accumulator (`BI`, `RAW`, `FS`) and to `DIRF` (R13 to R16, R128). -/

namespace Sys2Proof.Machine

/-- The event leaves `BI`, `RAW`, `FS` and `DIRF` alone, and leaves a frame only to IDLE or HALTED. -/
structure State.AccumulatorKept (s t : State) : Prop where
  bi : t.bi = s.bi
  raw : t.raw = s.raw
  fs : t.fs = s.fs
  dirf : t.dirf = s.dirf
  frame : s.st.inFrame → t.st.inFrame ∨ t.st = .idle ∨ t.st = .halted

theorem State.accumulatorKept_refl (s : State) : s.AccumulatorKept s := ⟨rfl, rfl, rfl, rfl, .inl⟩

theorem State.accumulatorKept_goto {s : State} {p : Phase} (h : s.st.inFrame → p.inFrame ∨ p = .idle ∨ p = .halted) :
    s.AccumulatorKept (s.goto p) :=
  ⟨rfl, rfl, rfl, rfl, h⟩

theorem State.accumulatorKept_takeCondition (s : State) (c : Condition) : s.AccumulatorKept (s.takeCondition c) := by
  refine ⟨s.takeCondition_bi c, s.takeCondition_raw c, s.takeCondition_fs c, s.takeCondition_dirf c, fun hf => ?_⟩
  cases c with
  | ill => exact .inl hf
  | configurationError | truncatedCapture => exact .inr (.inr rfl)
  | symbolMismatch | spuriousStart | seq | ovl => exact .inr (.inl rfl)

theorem State.accumulatorKept_completeFrame (s : State) (es ee : Sample) : s.AccumulatorKept (s.completeFrame es ee) :=
  ⟨rfl, rfl, rfl, rfl, fun _ => .inr (.inl rfl)⟩

/-- Recording the edge first (R91) touches none of these registers. -/
theorem State.accumulatorKept_of_record {s t : State} {x : Sample} (h : (s.record x).AccumulatorKept t) :
    s.AccumulatorKept t :=
  { h with }

/-- R112, R113: the one update of `BI` and `RAW` within a frame. -/
structure State.BitTaken (s t : State) : Prop where
  before : s.st = .ifP
  after : t.st = .ifA
  bi : t.bi.val = s.bi.val + 1
  raw : t.raw = s.raw ∨ t.raw = s.raw ||| 1#40 <<< s.bi.val
  fs : t.fs = s.fs
  dirf : t.dirf = s.dirf

theorem writeBit_cases (raw : RawWord) (i : BitIndex) (b : Bool) :
    writeBit raw i b = raw ∨ writeBit raw i b = raw ||| 1#40 <<< i.val := by
  cases b with
  | false => exact .inl rfl
  | true => exact .inr rfl

/-- R109: a pair is a bit that is taken, or nothing is accumulated. -/
theorem State.applyPair_accumulator {s : State} (hs : s.st = .ifP) (c : PairClass) :
    s.BitTaken (s.applyPair c) ∨ s.AccumulatorKept (s.applyPair c) := by
  obtain ⟨b, hlt, e⟩ | ⟨-, -, e⟩ | ⟨-, e⟩ | ⟨-, e⟩ := s.applyPair_cases c <;> rw [e]
  · exact .inl ⟨hs, rfl, rfl, writeBit_cases s.raw s.bi b, rfl, rfl⟩
  · exact .inr (s.accumulatorKept_takeCondition .ovl)
  · exact .inr (s.accumulatorKept_completeFrame _ _)
  · exact .inr (s.accumulatorKept_takeCondition .symbolMismatch)

/-- What an event can do to the accumulator: nothing, the start of an attempt, the confirmation of a start pulse, or a bit. -/
inductive AccumulatorStep : Instr → State → State → Prop where
  | kept {i : Instr} {s t : State} (h : s.AccumulatorKept t) : AccumulatorStep i s t
  | start {s : State} (ch : Channel) (pol : Polarity) (x : Sample) (hs : s.st = .idle)
      (hq : startsAttempt s.var ch pol = true) : AccumulatorStep (.edge ch pol x) s (s.startAttempt ch x)
  | confirm {i : Instr} {s : State} (x : Sample) (hs : s.st = .ascP) : AccumulatorStep i s (s.record x).confirmStart
  | bit {i : Instr} {s t : State} (h : s.BitTaken t) : AccumulatorStep i s t

theorem exec_edge_accumulator {s t : State} {ch : Channel} {pol : Polarity} {x : Sample}
    (h : exec (.edge ch pol x) s = .next t) : AccumulatorStep (.edge ch pol x) s t := by
  obtain rfl | ⟨-, hq, hs, rfl⟩ | ⟨-, -, -, -, -, -, rfl⟩ | ⟨-, -, -, -, hrule⟩ := exec_edge_next h
  · exact .kept (State.accumulatorKept_refl _)
  · exact .start ch pol x hs (by rwa [State.qualifies_idle hs] at hq)
  · exact .kept (s.accumulatorKept_takeCondition .seq)
  · obtain ⟨hs, rfl | rfl⟩ | ⟨hs, -, rfl | rfl⟩ | ⟨-, rfl | ⟨-, rfl⟩⟩ | ⟨hs, -, rfl⟩ := hrule
    · refine .kept (State.accumulatorKept_of_record (State.accumulatorKept_goto fun hf => ?_))
      exact absurd hf (by simp [hs, Phase.inFrame])
    · exact .kept (State.accumulatorKept_of_record (State.accumulatorKept_takeCondition _ _))
    · exact .confirm x hs
    · exact .kept (State.accumulatorKept_of_record (State.accumulatorKept_takeCondition _ _))
    · exact .kept (State.accumulatorKept_of_record (State.accumulatorKept_goto fun _ => .inl (.inr rfl)))
    · exact .kept (State.accumulatorKept_of_record (State.accumulatorKept_completeFrame _ _ _))
    · obtain hbit | hkept := State.applyPair_accumulator (s := s.record x) hs
        (s.classifyPair (sampleDistance s.t0 s.t1) (sampleDistance x s.t0))
      · exact .bit { hbit with }
      · exact .kept (State.accumulatorKept_of_record hkept)

/-- Only edge events accumulate; RST, which clears everything, is left out. -/
theorem exec_accumulator (i : Instr) : ∀ s t : State, i ≠ .rst → exec i s = .next t → AccumulatorStep i s t := by
  induction i using forall_instr with
  | nop => rintro s _ - ⟨⟩; exact .kept s.accumulatorKept_refl
  | edge ch pol x => exact fun _ _ _ => exec_edge_accumulator
  | rate hz =>
    intro s t _ h
    obtain ⟨-, e⟩ | ⟨-, -, e⟩ | ⟨-, -, e⟩ | ⟨-, -, e⟩ := exec_rate_cases hz s <;> rw [e] at h <;> cases h
    · exact .kept s.accumulatorKept_refl
    · exact .kept (s.accumulatorKept_takeCondition .configurationError)
    · exact .kept ⟨rfl, rfl, rfl, rfl, .inl⟩
    · exact .kept (s.accumulatorKept_takeCondition .ill)
  | opt a b v d =>
    intro s t _ h
    obtain ⟨-, e⟩ | ⟨-, e⟩ | ⟨-, -, e⟩ := exec_opt_cases a b v d s <;> rw [e] at h <;> cases h
    · exact .kept s.accumulatorKept_refl
    · exact .kept ⟨rfl, rfl, rfl, rfl, .inl⟩
    · exact .kept (s.accumulatorKept_takeCondition .ill)
  | eoc =>
    intro s t _ h
    cases (exec_eoc s).symm.trans h
    exact .kept (State.accumulatorKept_goto fun _ => .inr (.inr rfl))
  | rst => exact fun _ _ h => absurd rfl h

/-- R103: the edge that starts an attempt, and the direction it gives. -/
theorem startAttempt_edge {v : Variant} {ch : Channel} {pol : Polarity} (x : Sample)
    (h : startsAttempt v ch pol = true) :
    (attemptDirection v ch = .tx ∧ ∃ y, Instr.edge ch pol x = .r0 y) ∨
      (attemptDirection v ch = .rx ∧ v = .twoWire ∧ ∃ y, Instr.edge ch pol x = .f1 y) := by
  obtain ⟨rfl, rfl⟩ | ⟨rfl, rfl, rfl⟩ := (startsAttempt_iff v ch pol).mp h
  · exact .inl ⟨attemptDirection_ch0 v, x, rfl⟩
  · exact .inr ⟨attemptDirection_twoWire_ch1, rfl, x, rfl⟩

/-- Settles O48, one kind of accumulator step at a time. -/
theorem accumulatorChangesOnlyAsTheRulesSay : Obligations.AccumulatorChangesOnlyAsTheRulesSay := by
  intro i s t hi h
  cases exec_accumulator i s t hi h with
  | kept h => exact ⟨.inl h.bi, .inl h.raw, .inl h.fs, .inl h.dirf, h.frame⟩
  | start ch pol x hs hq =>
    exact ⟨.inl rfl, .inl rfl, .inl rfl, .inr ⟨hs, rfl, startAttempt_edge x hq⟩,
      fun hf => absurd hf (by simp [hs, Phase.inFrame])⟩
  | confirm x hs =>
    exact ⟨.inr (.inl ⟨hs, rfl, rfl⟩), .inr (.inl ⟨hs, rfl, rfl⟩), .inr ⟨hs, rfl, rfl⟩, .inl rfl,
      fun _ => .inl (.inl rfl)⟩
  | bit h =>
    exact ⟨.inr (.inr ⟨h.before, h.after, h.bi⟩), h.raw.imp id fun hraw => .inr ⟨h.before, h.after, hraw⟩, .inl h.fs,
      .inl h.dirf, fun _ => .inl (.inl h.after)⟩

end Sys2Proof.Machine
end

section
/-! SUPPORT. The frame assembler bit by bit: the reversal (R131, R133, R139) and the frame-value record (R132 to R137). -/

namespace Sys2Proof.Machine

theorem rev40Sum_lt (raw : RawWord) (n : Nat) : rev40Sum raw n < 2 ^ n := by
  induction n with
  | zero => exact Nat.one_pos
  | succ n ih =>
    have hbit : (raw.getLsbD (frameWidth - 1 - n)).toNat * 2 ^ n ≤ 1 * 2 ^ n :=
      Nat.mul_le_mul_right _ (Bool.toNat_le _)
    rw [rev40Sum, pow_succ]
    omega

/-- R131: each summand of the reversal is one bit of it. -/
theorem testBit_rev40Sum (raw : RawWord) (n j : Nat) :
    (rev40Sum raw n).testBit j = (decide (j < n) && raw.getLsbD (39 - j)) := by
  induction n with
  | zero => simp [rev40Sum]
  | succ n ih =>
    rw [rev40Sum, Nat.add_comm, Nat.mul_comm, Nat.testBit_two_pow_mul_add _ (rev40Sum_lt raw n), ih]
    obtain hlt | rfl | hgt := Nat.lt_trichotomy j n
    · simp [hlt, Nat.lt_succ_of_lt hlt]
    · simp only [lt_irrefl, if_false, Nat.sub_self, Nat.testBit_bool_toNat, frameWidth, Nat.lt_succ_self, decide_true,
        Bool.true_and]
    · have hout : ¬ j < n + 1 := by omega
      have hdiff : j - n ≠ 0 := by omega
      simp [hgt.not_gt, hout, Nat.testBit_bool_toNat, hdiff]

theorem toNat_rev40 (raw : RawWord) (n : BitIndex) : (rev40 raw n).toNat = rev40Sum raw n.val := by
  have hfits : 2 ^ n.val ≤ 2 ^ 40 := Nat.pow_le_pow_right (by omega) (by omega)
  rw [rev40, BitVec.toNat_ofNat, Nat.mod_eq_of_lt ((rev40Sum_lt raw n.val).trans_le hfits)]

theorem rev40_lt (raw : RawWord) (n : BitIndex) : (rev40 raw n).toNat < 2 ^ n.val := by
  rw [toNat_rev40]
  exact rev40Sum_lt raw n.val

/-- R131, at every position: beyond the width both sides are 0. -/
@[simp] theorem getLsbD_rev40 (raw : RawWord) (n : BitIndex) (j : Nat) :
    (rev40 raw n).getLsbD j = (decide (j < n.val) && raw.getLsbD (39 - j)) := by
  rw [← BitVec.testBit_toNat, toNat_rev40, testBit_rev40Sum]

/-- R133: a surviving bit lies below `n`, and so does its mirror image about 19.5. -/
theorem rev40_bit_bounds {raw : RawWord} {n : BitIndex} (hraw : raw.toNat < 2 ^ n.val) {j : Nat}
    (hj : (rev40 raw n).getLsbD j = true) : 40 - n.val ≤ j ∧ j < n.val := by
  rw [getLsbD_rev40, Bool.and_eq_true, decide_eq_true_eq] at hj
  obtain ⟨hlt, hmirror⟩ := hj
  have himage : 39 - j < n.val := by
    by_contra hge
    have hclear := Nat.testBit_lt_two_pow (hraw.trans_le (Nat.pow_le_pow_right two_pos (Nat.le_of_not_lt hge)))
    rw [BitVec.testBit_toNat, hmirror] at hclear
    exact Bool.noConfusion hclear
  exact ⟨by omega, hlt⟩

/-- R133: at 20 bits or fewer no position is left. -/
theorem rev40_eq_zero {raw : RawWord} {n : BitIndex} (hraw : raw.toNat < 2 ^ n.val) (hn : n.val ≤ 20) :
    rev40 raw n = 0 := by
  refine BitVec.eq_of_getLsbD_eq fun j _ => ?_
  rw [BitVec.ofNat_eq_ofNat, BitVec.getLsbD_zero, Bool.eq_false_iff]
  intro hj
  obtain ⟨hlow, hhigh⟩ := rev40_bit_bounds hraw hj
  omega

/-- R139: the full reversal undoes itself. -/
theorem rev40_rev40_of_full (x : RawWord) {n : BitIndex} (hn : n.val = 40) : rev40 (rev40 x n) n = x := by
  refine BitVec.eq_of_getLsbD_eq fun j hj => ?_
  have hmirror : 39 - j < 40 := by omega
  have hback : 39 - (39 - j) = j := by omega
  rw [getLsbD_rev40, getLsbD_rev40, hn, hback, decide_eq_true hj, decide_eq_true hmirror, Bool.true_and, Bool.true_and]

/-- Settles O43, by induction on the sum. -/
theorem reversalIsAboutFortyBits : Obligations.ReversalIsAboutFortyBits :=
  fun raw n j _ => getLsbD_rev40 raw n j

/-- Settles O44: 20 bits or fewer leave no position between the two bounds. -/
theorem shortFramesReverseToZero : Obligations.ShortFramesReverseToZero :=
  fun _ _ hraw => ⟨fun _ => rev40_bit_bounds hraw, rev40_eq_zero hraw⟩

/-- Settles O45: below 40 bits the reversal always clears bit 39, so no value with that bit set comes back. -/
theorem reversalIsAnInvolutionOnlyAtForty : Obligations.ReversalIsAnInvolutionOnlyAtForty := by
  intro x n
  refine ⟨rev40_eq_zero (rev40_lt x n), rev40_rev40_of_full x, fun hn => ⟨BitVec.twoPow 40 39, fun h => ?_⟩⟩
  have hclear : (rev40 (rev40 (BitVec.twoPow 40 39) n) n).getLsbD 39 = false := by
    rw [getLsbD_rev40, decide_eq_false (by omega), Bool.false_and]
  rw [h] at hclear
  exact absurd hclear (by decide)

/-- R137: the payload is `disp + plabel * 2^40`. -/
theorem toNat_framePayload (l : ParityLabel) (disp : RawWord) :
    (framePayload l disp).toNat = disp.toNat + l.code.toNat * 2 ^ 40 := by
  have hlabel : (0#6 ++ l.code).toNat = l.code.toNat := by
    rw [BitVec.toNat_append, BitVec.toNat_zero, Nat.zero_shiftLeft, Nat.zero_or]
  rw [framePayload, BitVec.toNat_append, hlabel, Nat.shiftLeft_eq, Nat.mul_comm,
    ← Nat.two_pow_add_eq_or_of_lt disp.isLt, Nat.add_comm, Nat.mul_comm]

/-- R132, R135: even is checked before odd. -/
theorem parityLabel_eq (raw : RawWord) :
    parityLabel raw =
      if raw.getLsbD 10 = true then .even else if raw.getLsbD 26 = true then .odd else .none := rfl

theorem toNat_code_parityLabel (raw : RawWord) :
    (parityLabel raw).code.toNat =
      if raw.getLsbD 10 = true then 1 else if raw.getLsbD 26 = true then 2 else 0 := by
  rw [parityLabel_eq]
  split_ifs <;> rfl

/-- R134. -/
theorem displayValue_eq (b : BitOrder) (raw : RawWord) (n : BitIndex) :
    displayValue b raw n = if b = .lsbFirst then raw else rev40 raw n := by
  cases b <;> rfl

/-- R136. -/
theorem frameCategory_eq (v : Variant) (d : Direction) :
    frameCategory v d = if v = .twoWire ∧ d = .rx then .frameRx else .frameTx := by
  cases v <;> cases d <;> rfl

/-- Settles O46, one field of the payload at a time. -/
theorem frameRecordLayout : Obligations.FrameRecordLayout := by
  intro s ee
  refine ⟨rfl, rfl, frameCategory_eq s.var s.dirf, ?_⟩
  calc (s.frameRecord ee).payload.toNat
    _ = (displayValue s.bord s.raw s.bi).toNat + (parityLabel s.raw).code.toNat * 2 ^ 40 := toNat_framePayload _ _
    _ = _ := by rw [displayValue_eq, toNat_code_parityLabel, apply_ite BitVec.toNat]

end Sys2Proof.Machine
end

section
/-! SUPPORT. The flags one event or one reserved word can raise (R160), and the step with no word in `IN` (R164, R173). -/

namespace Sys2Proof.Machine

/-- R160, for an event: SEQ and OVL are raised by an edge, CFG and ILL by RATE, ILL by OPT, each alone. -/
theorem exec_fault_cases (i : Instr) : ∀ s t : State, i ≠ .rst → exec i s = .next t →
    t.fault = s.fault ∨ ∃ f, t.fault = s.fault.raise f := by
  induction i using forall_instr with
  | nop => rintro s _ - ⟨⟩; exact .inl rfl
  | edge ch pol x =>
    intro s t _ h
    obtain ⟨hkept, -⟩ | ⟨hseq, -⟩ | ⟨hovl, -⟩ := exec_edge_fault h
    · exact .inl hkept
    · exact .inr ⟨.seq, hseq⟩
    · exact .inr ⟨.ovl, hovl⟩
  | rate hz =>
    intro s t _ h
    obtain ⟨-, e⟩ | ⟨-, -, e⟩ | ⟨-, -, e⟩ | ⟨-, -, e⟩ := exec_rate_cases hz s <;> cases e.symm.trans h
    · exact .inl rfl
    · exact .inr ⟨.cfg, rfl⟩
    · exact .inl rfl
    · exact .inr ⟨.ill, rfl⟩
  | opt a b v d =>
    intro s t _ h
    obtain ⟨-, e⟩ | ⟨-, e⟩ | ⟨-, -, e⟩ := exec_opt_cases a b v d s <;> cases e.symm.trans h
    · exact .inl rfl
    · exact .inl rfl
    · exact .inr ⟨.ill, rfl⟩
  | eoc => intro s t _ h; cases (exec_eoc s).symm.trans h; exact .inl rfl
  | rst => exact fun _ _ h => absurd rfl h

/-- R160, for a reserved word: ILL, unless the block is halted (R66, R120). -/
theorem reservedEvent_fault_cases {s t : State} (h : reservedEvent s = .next t) :
    t.fault = s.fault ∨ ∃ f, t.fault = s.fault.raise f := by
  obtain ⟨-, e⟩ | ⟨-, e⟩ := reservedEvent_cases s <;> cases e.symm.trans h
  · exact .inl rfl
  · exact .inr ⟨.ill, rfl⟩

/-- Settles O50: a word runs as an event other than RST, or as a reserved one. -/
theorem oneEventRaisesAtMostOneFlag : Obligations.OneEventRaisesAtMostOneFlag := by
  intro w s t hw h
  cases hd : decode w with
  | ok i =>
    rw [runWord_ok hd] at h
    exact exec_fault_cases i s t (fun hi => hw (hi ▸ hd)) h
  | error r =>
    rw [runWord_error hd] at h
    exact reservedEvent_fault_cases h

/-- R164, R173: the block waits while `IN` is empty (entry 2). -/
theorem step_nil {s : State} (h : s.input = []) : step s = .next s := by
  simp [step, h]

/-- Settles O8: with `IN` empty the step takes its waiting arm. -/
theorem stepWaitsForAWord : Obligations.StepWaitsForAWord := fun _ => step_nil

end Sys2Proof.Machine
end

section
/-! SUPPORT. RST (R170) answers the reset state with `IN` as it was (entry 10); what it specifies is then what the reset
state specifies (R31). -/

namespace Sys2Proof.Machine

/-- What a state specifies does not depend on `IN`, but for `IN` itself. -/
theorem State.specified_withInput (s : State) (l : List EventWord) :
    (s.withInput l).specified = s.specified.withInput l := rfl

/-- R170, entry 10. -/
theorem exec_rst_eq_reset_withInput (s : State) : exec .rst s = .next (State.reset.withInput s.input) := exec_rst s

/-- Settles O12: `IN` apart, the registers of the answer are those of the reset state (R31). -/
theorem rstResetsEveryState : Obligations.RstResetsEveryState := by
  intro s
  obtain ⟨hst, hbi, hraw, hdirf, hehc, hcfgd, hacc, hbord, hvar, hdir, -, hout⟩ := resetStateHoldsTheSpecifiedValues
  have hfault : State.reset.fault = ⟨false, false, false, false⟩ := rfl
  have hinput : (State.reset.withInput s.input).input = s.input := rfl
  exact ⟨State.reset.withInput s.input, exec_rst_eq_reset_withInput s, hst, hehc, hbi, hraw, hdirf, hcfgd, hacc, hbord,
    hvar, hdir, hfault, hout, hinput, State.specified_withInput State.reset s.input⟩

end Sys2Proof.Machine
end

section
/-! SUPPORT. Reading a word numbered as the opcode table numbers it (R45, R67), and the words of 95_test_vectors.md
section 3.7. -/

namespace Sys2Proof

/-- R45: the bytes of a word alone are read as the word, and nothing stays. -/
theorem decodeBytes_serialise (w : EventWord) : decodeBytes (serialise w) = (decode w).map fun i => (i, []) := by
  simpa using decodeBytes_serialise_append w []

/-- The modulus of the 72-bit table is that of the word type. -/
@[simp] theorem tableWord_72 (w : Nat) : tableWord 72 w = BitVec.ofNat 72 w := by
  apply BitVec.eq_of_toNat_eq
  simp [tableWord]

/-- Writing a table word as bytes and reading it back is the decoder alone. -/
theorem decodeTableWord_72 (w : Nat) : decodeTableWord 72 w = (decode (BitVec.ofNat 72 w)).toOption := by
  rw [decodeTableWord, decodeBytes_serialise, tableWord_72]
  cases decode (BitVec.ofNat 72 w) <;> rfl

section TableWords

variable {w : Nat}

theorem decodeTableWord_of_decode {i : Instr} (h : decode (BitVec.ofNat 72 w) = .ok i) : decodeTableWord 72 w = some i := by
  rw [decodeTableWord_72, h]
  rfl

/-- R56 to R59: a word as the encoder writes it. -/
theorem decodeTableWord_of_encode {i : Instr} (h : BitVec.ofNat 72 w = encode i) : decodeTableWord 72 w = some i :=
  decodeTableWord_of_decode (h ▸ decode_encode i)

/-- R66, R67: no event is read from a reserved word. -/
theorem decodeTableWord_of_reserved (h : EventWord.reserved (BitVec.ofNat 72 w) = true) : decodeTableWord 72 w = none := by
  obtain ⟨r, hr⟩ := (decode_eq_error_iff _).mpr h
  rw [decodeTableWord_72, hr]
  rfl

end TableWords

/-- Settles O4: the words of F0, R0, F1, R1, RATE and OPT are those the encoder writes; NOP, EOC and RST are read by `op`
(and EOC's `arg`) alone, whatever the bits they ignore (R59); the last word has `data[7] = 1` in an OPT (R66). -/
theorem specWordsDecodeAsListed : Obligations.SpecWordsDecodeAsListed := by
  obtain ⟨-, -, -, nop_of_op, rst_of_op, eoc_of_op⟩ := Machine.reservedWordsRaiseIll
  refine ⟨?nop, ?f0, ?r0, ?f1, ?r1, ?rate, ?opt, ?eoc, ?rst, ?reserved⟩
  case nop => exact decodeTableWord_of_decode (nop_of_op _ (by decide))
  case f0 | r0 | f1 | r1 | rate | opt => exact decodeTableWord_of_encode (by decide)
  case eoc => exact decodeTableWord_of_decode (eoc_of_op _ (by decide) (by decide))
  case rst => exact decodeTableWord_of_decode (rst_of_op _ (by decide))
  case reserved => exact decodeTableWord_of_reserved (by decide)

end Sys2Proof
end
